-- ==== Sys2Proof/Word.lean ====
section
/-! DEFINITION. The two word types of the machine (`00_scope.md` R4, R8): an 8-bit byte and a
16-bit CPU bus address. Everything that takes words apart stands in `Machine/Bits.lean`. -/

namespace Sys2Proof

/-- R4: "A byte is 8 bits." Registers A, X, Y, S and P have this type too. -/
abbrev Byte := BitVec 8

/-- R4: "A CPU bus address is 16 bits". PC has this type. -/
abbrev Addr := BitVec 16

end Sys2Proof
end

