-- ==== Sys2Proof/Machine/Bits.lean ====
section
/-! DEFINITION. Bit slicing, byte order and sign extension (`00_scope.md` R8, `20_memory.md` R41). -/

namespace Sys2Proof

/-- R8: `hi8(v) = v[15:8]`. -/
def hi8 (w : Addr) : Byte := w.extractLsb' 8 8

/-- R8: `lo8(v) = v[7:0]`. -/
def lo8 (w : Addr) : Byte := w.extractLsb' 0 8

/-- R8: `hi :: lo`, the 16-bit value `hi*256 + lo`. -/
def word (hi lo : Byte) : Addr := hi ++ lo

/-- R8: `zext_16(v)`. A zero-page address. -/
def zext16 (b : Byte) : Addr := b.setWidth 16

/-- R8: `sext_16(v)`. -/
def sext16 (b : Byte) : Addr := b.signExtend 16

/-- R335: "`ReverseBits(b)` is the byte whose bit `i` is `b[7 - i]`". -/
def reverseBits (b : Byte) : Byte :=
  BitVec.ofBool (b.getLsbD 0) ++ BitVec.ofBool (b.getLsbD 1) ++ BitVec.ofBool (b.getLsbD 2)
    ++ BitVec.ofBool (b.getLsbD 3) ++ BitVec.ofBool (b.getLsbD 4) ++ BitVec.ofBool (b.getLsbD 5)
    ++ BitVec.ofBool (b.getLsbD 6) ++ BitVec.ofBool (b.getLsbD 7)

/-- `v` with bit `i` set to `b`, every other bit as it was. -/
def putBit {n : Nat} (v : BitVec n) (i : Nat) (b : Bool) : BitVec n :=
  if b then v ||| BitVec.twoPow n i else v &&& ~~~ BitVec.twoPow n i

end Sys2Proof
end

