-- ==== Sys2Proof/Syntax.lean ====
section
/-! DEFINITION. The instruction set as data. One constructor of `Instr` per mnemonic of the opcode
table (`30_encoding.md` R88, R89); a row of the table is a constructor with one of its operand forms,
and a form type has one constructor per addressing mode the table gives that mnemonic, so a form the
table lacks cannot be written. Only `xxx` carries data that needs a check (`WellFormed.lean`). -/

namespace Sys2Proof

/-- The thirteen addressing modes (R74 to R86). -/
inductive Mode where
  | imp | acc | imm | zp0 | zpx | zpy | rel | abs | abx | aby | ind | izx | izy
  deriving DecidableEq, Repr

/-- R70: how many operand bytes follow the opcode in each mode. -/
def Mode.operandBytes : Mode → Nat
  | .imp | .acc => 0
  | .imm | .zp0 | .zpx | .zpy | .rel | .izx | .izy => 1
  | .abs | .abx | .aby | .ind => 2

/-- The eight modes that name a byte of memory, with their operand bytes (R77 to R79, R81 to R83, R85, R86). -/
inductive MemOperand where
  | zp0 (t : Byte)
  | zpx (t : Byte)
  | zpy (t : Byte)
  | abs (w : Addr)
  | abx (w : Addr)
  | aby (w : Addr)
  | izx (t : Byte)
  | izy (t : Byte)
  deriving DecidableEq, Repr

/-- An operand an instruction reads: the immediate byte (R76) or a byte of memory. -/
inductive Source where
  | imm (n : Byte)
  | mem (m : MemOperand)
  deriving DecidableEq, Repr

/-- Forms of LDA, AND, EOR, ORA, ADC, SBC and CMP (R89). -/
inductive AluForm where
  | imm (n : Byte)
  | zp0 (t : Byte)
  | zpx (t : Byte)
  | abs (w : Addr)
  | abx (w : Addr)
  | aby (w : Addr)
  | izx (t : Byte)
  | izy (t : Byte)
  deriving DecidableEq, Repr

/-- Forms of LDX (R102). -/
inductive LdxForm where
  | imm (n : Byte)
  | zp0 (t : Byte)
  | zpy (t : Byte)
  | abs (w : Addr)
  | aby (w : Addr)
  deriving DecidableEq, Repr

/-- Forms of LDY (R103). -/
inductive LdyForm where
  | imm (n : Byte)
  | zp0 (t : Byte)
  | zpx (t : Byte)
  | abs (w : Addr)
  | abx (w : Addr)
  deriving DecidableEq, Repr

/-- Forms of STA (R104). -/
inductive StaForm where
  | zp0 (t : Byte)
  | zpx (t : Byte)
  | abs (w : Addr)
  | abx (w : Addr)
  | aby (w : Addr)
  | izx (t : Byte)
  | izy (t : Byte)
  deriving DecidableEq, Repr

/-- Forms of STX (R105). -/
inductive StxForm where
  | zp0 (t : Byte)
  | zpy (t : Byte)
  | abs (w : Addr)
  deriving DecidableEq, Repr

/-- Forms of STY (R106). -/
inductive StyForm where
  | zp0 (t : Byte)
  | zpx (t : Byte)
  | abs (w : Addr)
  deriving DecidableEq, Repr

/-- Forms of BIT (R134). -/
inductive BitForm where
  | zp0 (t : Byte)
  | abs (w : Addr)
  deriving DecidableEq, Repr

/-- Forms of CPX and CPY (R144, R145). -/
inductive CpxForm where
  | imm (n : Byte)
  | zp0 (t : Byte)
  | abs (w : Addr)
  deriving DecidableEq, Repr

/-- Forms of INC and DEC (R146, R149). -/
inductive IncForm where
  | zp0 (t : Byte)
  | zpx (t : Byte)
  | abs (w : Addr)
  | abx (w : Addr)
  deriving DecidableEq, Repr

/-- Forms of ASL, LSR, ROL and ROR (R161 to R164). -/
inductive ShiftForm where
  | acc
  | zp0 (t : Byte)
  | zpx (t : Byte)
  | abs (w : Addr)
  | abx (w : Addr)
  deriving DecidableEq, Repr

/-- Forms of JMP (R170). -/
inductive JmpForm where
  | abs (w : Addr)
  | ind (w : Addr)
  deriving DecidableEq, Repr

/-- The operand an unassigned slot consumes: any of the thirteen modes, since R7's `xxx_mode` gives a slot any. -/
inductive XxxForm where
  | imp
  | acc
  | imm (n : Byte)
  | rel (t : Byte)
  | ind (w : Addr)
  | mem (m : MemOperand)
  deriving DecidableEq, Repr

/-- The 56 official mnemonics and `XXX` (R88, R89, R91). A branch carries its offset byte (R80),
JSR its target word (R171); `xxx` carries the opcode byte of its slot. -/
inductive Instr where
  | lda (f : AluForm) | ldx (f : LdxForm) | ldy (f : LdyForm)
  | sta (f : StaForm) | stx (f : StxForm) | sty (f : StyForm)
  | tax | tay | txa | tya | tsx | txs
  | pha | php | pla | plp
  | and (f : AluForm) | eor (f : AluForm) | ora (f : AluForm) | bit (f : BitForm)
  | adc (f : AluForm) | sbc (f : AluForm) | cmp (f : AluForm) | cpx (f : CpxForm) | cpy (f : CpxForm)
  | inc (f : IncForm) | inx | iny | dec (f : IncForm) | dex | dey
  | asl (f : ShiftForm) | lsr (f : ShiftForm) | rol (f : ShiftForm) | ror (f : ShiftForm)
  | jmp (f : JmpForm) | jsr (w : Addr) | rts | brk | rti
  | bcc (t : Byte) | bcs (t : Byte) | beq (t : Byte) | bmi (t : Byte)
  | bne (t : Byte) | bpl (t : Byte) | bvc (t : Byte) | bvs (t : Byte)
  | clc | cld | cli | clv | sec | sed | sei | nop
  | xxx (op : Byte) (f : XxxForm)
  deriving DecidableEq, Repr

/-! The addressing mode of each form, and the operand it stands for. -/

def MemOperand.mode : MemOperand → Mode
  | .zp0 _ => .zp0 | .zpx _ => .zpx | .zpy _ => .zpy | .abs _ => .abs
  | .abx _ => .abx | .aby _ => .aby | .izx _ => .izx | .izy _ => .izy

def Source.mode : Source → Mode
  | .imm _ => .imm
  | .mem m => m.mode

def AluForm.source : AluForm → Source
  | .imm n => .imm n
  | .zp0 t => .mem (.zp0 t)
  | .zpx t => .mem (.zpx t)
  | .abs w => .mem (.abs w)
  | .abx w => .mem (.abx w)
  | .aby w => .mem (.aby w)
  | .izx t => .mem (.izx t)
  | .izy t => .mem (.izy t)

def LdxForm.source : LdxForm → Source
  | .imm n => .imm n
  | .zp0 t => .mem (.zp0 t)
  | .zpy t => .mem (.zpy t)
  | .abs w => .mem (.abs w)
  | .aby w => .mem (.aby w)

def LdyForm.source : LdyForm → Source
  | .imm n => .imm n
  | .zp0 t => .mem (.zp0 t)
  | .zpx t => .mem (.zpx t)
  | .abs w => .mem (.abs w)
  | .abx w => .mem (.abx w)

def StaForm.operand : StaForm → MemOperand
  | .zp0 t => .zp0 t
  | .zpx t => .zpx t
  | .abs w => .abs w
  | .abx w => .abx w
  | .aby w => .aby w
  | .izx t => .izx t
  | .izy t => .izy t

def StxForm.operand : StxForm → MemOperand
  | .zp0 t => .zp0 t
  | .zpy t => .zpy t
  | .abs w => .abs w

def StyForm.operand : StyForm → MemOperand
  | .zp0 t => .zp0 t
  | .zpx t => .zpx t
  | .abs w => .abs w

def BitForm.source : BitForm → Source
  | .zp0 t => .mem (.zp0 t)
  | .abs w => .mem (.abs w)

def CpxForm.source : CpxForm → Source
  | .imm n => .imm n
  | .zp0 t => .mem (.zp0 t)
  | .abs w => .mem (.abs w)

def IncForm.operand : IncForm → MemOperand
  | .zp0 t => .zp0 t
  | .zpx t => .zpx t
  | .abs w => .abs w
  | .abx w => .abx w

/-- `none` is mode ACC: the operand is the accumulator (R75). -/
def ShiftForm.operand : ShiftForm → Option MemOperand
  | .acc => none
  | .zp0 t => some (.zp0 t)
  | .zpx t => some (.zpx t)
  | .abs w => some (.abs w)
  | .abx w => some (.abx w)

def ShiftForm.mode : ShiftForm → Mode
  | .acc => .acc
  | .zp0 _ => .zp0
  | .zpx _ => .zpx
  | .abs _ => .abs
  | .abx _ => .abx

def JmpForm.mode : JmpForm → Mode
  | .abs _ => .abs
  | .ind _ => .ind

def XxxForm.mode : XxxForm → Mode
  | .imp => .imp
  | .acc => .acc
  | .imm _ => .imm
  | .rel _ => .rel
  | .ind _ => .ind
  | .mem m => m.mode

/-- The addressing mode of an instruction: column `format` of the opcode table. -/
def Instr.mode : Instr → Mode
  | .lda f | .and f | .eor f | .ora f | .adc f | .sbc f | .cmp f => f.source.mode
  | .ldx f => f.source.mode
  | .ldy f => f.source.mode
  | .sta f => f.operand.mode
  | .stx f => f.operand.mode
  | .sty f => f.operand.mode
  | .bit f => f.source.mode
  | .cpx f | .cpy f => f.source.mode
  | .inc f | .dec f => f.operand.mode
  | .asl f | .lsr f | .rol f | .ror f => f.mode
  | .jmp f => f.mode
  | .jsr _ => .abs
  | .bcc _ | .bcs _ | .beq _ | .bmi _ | .bne _ | .bpl _ | .bvc _ | .bvs _ => .rel
  | .tax | .tay | .txa | .tya | .tsx | .txs | .pha | .php | .pla | .plp
  | .inx | .iny | .dex | .dey | .rts | .brk | .rti
  | .clc | .cld | .cli | .clv | .sec | .sed | .sei | .nop => .imp
  | .xxx _ f => f.mode

/-- R70: the length in bytes, opcode included. -/
def Instr.length (i : Instr) : Nat := 1 + i.mode.operandBytes

end Sys2Proof
end

