-- ==== Sys2Proof/Machine/OpcodeTables.lean ====
section
/-! DEFINITION. The two per-opcode launch parameters of `00_scope.md` R7, as tables indexed by the opcode byte, with
the default the spec gives each: `base_cycles` (`30_encoding.md` R90, third item of each cell of R88) and `xxx_mode`
(R92, list form). The machine reads both from `State.launch`. Log entries 5 and 6. -/

namespace Sys2Proof

/-- R7: the type of `base_cycles`: a count for each opcode byte. -/
abbrev BaseCycles := Vector Nat 256

/-- R7: the type of `xxx_mode`: a mode for each opcode byte; only the 105 unassigned bytes' modes are read (R91). -/
abbrev XxxModes := Vector Mode 256

/-- R90: the base count of an opcode byte. -/
def BaseCycles.count (m : BaseCycles) (op : Byte) : Nat := m[op.toNat]'op.isLt

/-- R92: the mode of an opcode byte's slot. -/
def XxxModes.mode (m : XxxModes) (op : Byte) : Mode := m[op.toNat]'op.isLt

namespace Machine

/-- R88, row 0x: the base cycles of its sixteen opcode bytes. -/
def cycleRow0 : List Nat := [7, 6, 2, 8, 3, 3, 5, 5, 3, 2, 2, 2, 4, 4, 6, 6]
def cycleRow1 : List Nat := [2, 5, 2, 8, 4, 4, 6, 6, 2, 4, 2, 7, 4, 4, 7, 7]
def cycleRow2 : List Nat := [6, 6, 2, 8, 3, 3, 5, 5, 4, 2, 2, 2, 4, 4, 6, 6]
def cycleRow3 : List Nat := [2, 5, 2, 8, 4, 4, 6, 6, 2, 4, 2, 7, 4, 4, 7, 7]
def cycleRow4 : List Nat := [6, 6, 2, 8, 3, 3, 5, 5, 3, 2, 2, 2, 3, 4, 6, 6]
def cycleRow5 : List Nat := [2, 5, 2, 8, 4, 4, 6, 6, 2, 4, 2, 7, 4, 4, 7, 7]
def cycleRow6 : List Nat := [6, 6, 2, 8, 3, 3, 5, 5, 4, 2, 2, 2, 5, 4, 6, 6]
def cycleRow7 : List Nat := [2, 5, 2, 8, 4, 4, 6, 6, 2, 4, 2, 7, 4, 4, 7, 7]
def cycleRow8 : List Nat := [2, 6, 2, 6, 3, 3, 3, 3, 2, 2, 2, 2, 4, 4, 4, 4]
def cycleRow9 : List Nat := [2, 6, 2, 6, 4, 4, 4, 4, 2, 5, 2, 5, 5, 5, 5, 5]
def cycleRowA : List Nat := [2, 6, 2, 6, 3, 3, 3, 3, 2, 2, 2, 2, 4, 4, 4, 4]
def cycleRowB : List Nat := [2, 5, 2, 5, 4, 4, 4, 4, 2, 4, 2, 4, 4, 4, 4, 4]
def cycleRowC : List Nat := [2, 6, 2, 8, 3, 3, 5, 5, 2, 2, 2, 2, 4, 4, 6, 6]
def cycleRowD : List Nat := [2, 5, 2, 8, 4, 4, 6, 6, 2, 4, 2, 7, 4, 4, 7, 7]
def cycleRowE : List Nat := [2, 6, 2, 8, 3, 3, 5, 5, 2, 2, 2, 2, 4, 4, 6, 6]
def cycleRowF : List Nat := [2, 5, 2, 8, 4, 4, 6, 6, 2, 4, 2, 7, 4, 4, 7, 7]

/-- R90: the sixteen rows, one after the other. -/
def cycleTable : List Nat :=
  cycleRow0 ++ cycleRow1 ++ cycleRow2 ++ cycleRow3 ++ cycleRow4 ++ cycleRow5 ++ cycleRow6 ++ cycleRow7
    ++ cycleRow8 ++ cycleRow9 ++ cycleRowA ++ cycleRowB ++ cycleRowC ++ cycleRowD ++ cycleRowE ++ cycleRowF

/-- R90: the default of `base_cycles`. -/
def defaultBaseCycles : BaseCycles :=
  ⟨cycleTable.toArray, by simp only [List.size_toArray, cycleTable, List.length_append]; rfl⟩

/-- R92: the unassigned bytes with mode IMP. -/
def xxxSlots_imp : List Byte := [0x02, 0x12, 0x22, 0x32, 0x42, 0x52, 0x62, 0x72, 0x92, 0xB2, 0xD2, 0xF2, 0x1A, 0x3A, 0x5A, 0x7A, 0xDA, 0xFA]
/-- R92: the unassigned bytes with mode IMM. -/
def xxxSlots_imm : List Byte := [0x80, 0x82, 0x89, 0xC2, 0xE2, 0x0B, 0x2B, 0x4B, 0x6B, 0x8B, 0xAB, 0xCB, 0xEB]
/-- R92: the unassigned bytes with mode ZP0. -/
def xxxSlots_zp0 : List Byte := [0x04, 0x44, 0x64, 0x07, 0x27, 0x47, 0x67, 0x87, 0xA7, 0xC7, 0xE7]
/-- R92: the unassigned bytes with mode ZPX. -/
def xxxSlots_zpx : List Byte := [0x14, 0x34, 0x54, 0x74, 0xD4, 0xF4, 0x17, 0x37, 0x57, 0x77, 0xD7, 0xF7]
/-- R92: the unassigned bytes with mode ZPY. -/
def xxxSlots_zpy : List Byte := [0x97, 0xB7]
/-- R92: the unassigned bytes with mode IZX. -/
def xxxSlots_izx : List Byte := [0x03, 0x23, 0x43, 0x63, 0x83, 0xA3, 0xC3, 0xE3]
/-- R92: the unassigned bytes with mode IZY. -/
def xxxSlots_izy : List Byte := [0x13, 0x33, 0x53, 0x73, 0x93, 0xB3, 0xD3, 0xF3]
/-- R92: the unassigned bytes with mode ABS. -/
def xxxSlots_abs : List Byte := [0x0C, 0x0F, 0x2F, 0x4F, 0x6F, 0x8F, 0xAF, 0xCF, 0xEF]
/-- R92: the unassigned bytes with mode ABX. -/
def xxxSlots_abx : List Byte := [0x1C, 0x3C, 0x5C, 0x7C, 0xDC, 0xFC, 0x1F, 0x3F, 0x5F, 0x7F, 0x9C, 0xDF, 0xFF]
/-- R92: the unassigned bytes with mode ABY. -/
def xxxSlots_aby : List Byte := [0x1B, 0x3B, 0x5B, 0x7B, 0x9B, 0xBB, 0xDB, 0xFB, 0x9E, 0x9F, 0xBF]

/-- R92: the 105 unassigned opcode bytes, grouped by the mode each consumes. -/
def xxxTable : List (Mode × List Byte) :=
  [(.imp, xxxSlots_imp), (.imm, xxxSlots_imm), (.zp0, xxxSlots_zp0), (.zpx, xxxSlots_zpx), (.zpy, xxxSlots_zpy)]
    ++ [(.izx, xxxSlots_izx), (.izy, xxxSlots_izy), (.abs, xxxSlots_abs), (.abx, xxxSlots_abx), (.aby, xxxSlots_aby)]

/-- R92: the mode R92's list gives a byte; `none` for the 151 official bytes. -/
def listedXxxMode (op : Byte) : Option Mode :=
  (xxxTable.find? (fun row => row.2.contains op)).map (fun row => row.1)

/-- R91: one of the 105 unassigned bytes. -/
def isUnassigned (op : Byte) : Bool := (listedXxxMode op).isSome

/-- R92: the default of `xxx_mode`; IMP stands where no rule gives a mode, at the official bytes. -/
def defaultXxxModes : XxxModes :=
  ⟨((List.range 256).map (fun n => (listedXxxMode (BitVec.ofNat 8 n)).getD .imp)).toArray, by simp⟩

end Machine
end Sys2Proof
end

