-- ==== Sys2Proof/WellFormed.lean ====
section
/-! DEFINITION. What makes an instruction one of the opcode table's. The form types of `Syntax.lean`
already admit exactly the table's rows for the 56 official mnemonics, so only `xxx` has checks. -/

namespace Sys2Proof

/-- R91, R92: an `xxx` instruction names one of the 105 unassigned bytes, and its operand has the mode that the
launch parameter `modes` gives that slot. -/
def Instr.WellFormed (modes : XxxModes) : Instr → Bool
  | .xxx op f => Machine.isUnassigned op && modes.mode op == f.mode
  | .lda _ | .ldx _ | .ldy _ | .sta _ | .stx _ | .sty _
  | .tax | .tay | .txa | .tya | .tsx | .txs | .pha | .php | .pla | .plp
  | .and _ | .eor _ | .ora _ | .bit _ | .adc _ | .sbc _ | .cmp _ | .cpx _ | .cpy _
  | .inc _ | .inx | .iny | .dec _ | .dex | .dey | .asl _ | .lsr _ | .rol _ | .ror _
  | .jmp _ | .jsr _ | .rts | .brk | .rti
  | .bcc _ | .bcs _ | .beq _ | .bmi _ | .bne _ | .bpl _ | .bvc _ | .bvs _
  | .clc | .cld | .cli | .clv | .sec | .sed | .sei | .nop => true

end Sys2Proof
end

