-- ==== Sys2Proof/Decode.lean ====
section
/-! DEFINITION. The decoder: the opcode map of `30_encoding.md` R88 as a table of 16 rows of 16 cells
(R70: "decoding is a 256-entry table lookup"), `decode` on any bytes, and after it the encoder, written
from the list by mnemonic of R89. -/

namespace Sys2Proof

/-- One entry of the opcode table: how many operand bytes follow (formats F1, F2, F3 of R70) and the instruction
they make. -/
inductive Slot where
  | one (i : Instr)
  | two (f : Byte → Instr)
  | three (f : Addr → Instr)
  /-- An `xxx` slot of mode IMM: PC passes one operand byte, which stands at `ea` (R76) and is not read (R199). -/
  | skip (f : Byte → Instr)

/-- The table entry of an unassigned byte whose mode is the argument (R92, R199). -/
def xxxSlot (op : Byte) : Mode → Slot
  | .imp => .one (.xxx op .imp)
  | .acc => .one (.xxx op .acc)
  | .imm => .skip (fun n => .xxx op (.imm n))
  | .zp0 => .two (fun t => .xxx op (.mem (.zp0 t)))
  | .zpx => .two (fun t => .xxx op (.mem (.zpx t)))
  | .zpy => .two (fun t => .xxx op (.mem (.zpy t)))
  | .rel => .two (fun t => .xxx op (.rel t))
  | .abs => .three (fun w => .xxx op (.mem (.abs w)))
  | .abx => .three (fun w => .xxx op (.mem (.abx w)))
  | .aby => .three (fun w => .xxx op (.mem (.aby w)))
  | .ind => .three (fun w => .xxx op (.ind w))
  | .izx => .two (fun t => .xxx op (.mem (.izx t)))
  | .izy => .two (fun t => .xxx op (.mem (.izy t)))

namespace Decode

/-! The cells of the map. `xxx` marks an unassigned slot, whose entry `xxx_mode` gives. -/

def one (i : Instr) : Option Slot := some (.one i)
def two (f : Byte → Instr) : Option Slot := some (.two f)
def three (f : Addr → Instr) : Option Slot := some (.three f)
def xxx : Option Slot := none

/-- R88, row 0x. -/
def mapRow0 : List (Option Slot) :=
  [one .brk, two (fun t => .ora (.izx t)), xxx, xxx,
   xxx, two (fun t => .ora (.zp0 t)), two (fun t => .asl (.zp0 t)), xxx,
   one .php, two (fun n => .ora (.imm n)), one (.asl .acc), xxx,
   xxx, three (fun w => .ora (.abs w)), three (fun w => .asl (.abs w)), xxx]

/-- R88, row 1x. -/
def mapRow1 : List (Option Slot) :=
  [two .bpl, two (fun t => .ora (.izy t)), xxx, xxx,
   xxx, two (fun t => .ora (.zpx t)), two (fun t => .asl (.zpx t)), xxx,
   one .clc, three (fun w => .ora (.aby w)), xxx, xxx,
   xxx, three (fun w => .ora (.abx w)), three (fun w => .asl (.abx w)), xxx]

/-- R88, row 2x. -/
def mapRow2 : List (Option Slot) :=
  [three .jsr, two (fun t => .and (.izx t)), xxx, xxx,
   two (fun t => .bit (.zp0 t)), two (fun t => .and (.zp0 t)), two (fun t => .rol (.zp0 t)), xxx,
   one .plp, two (fun n => .and (.imm n)), one (.rol .acc), xxx,
   three (fun w => .bit (.abs w)), three (fun w => .and (.abs w)), three (fun w => .rol (.abs w)), xxx]

/-- R88, row 3x. -/
def mapRow3 : List (Option Slot) :=
  [two .bmi, two (fun t => .and (.izy t)), xxx, xxx,
   xxx, two (fun t => .and (.zpx t)), two (fun t => .rol (.zpx t)), xxx,
   one .sec, three (fun w => .and (.aby w)), xxx, xxx,
   xxx, three (fun w => .and (.abx w)), three (fun w => .rol (.abx w)), xxx]

/-- R88, row 4x. -/
def mapRow4 : List (Option Slot) :=
  [one .rti, two (fun t => .eor (.izx t)), xxx, xxx,
   xxx, two (fun t => .eor (.zp0 t)), two (fun t => .lsr (.zp0 t)), xxx,
   one .pha, two (fun n => .eor (.imm n)), one (.lsr .acc), xxx,
   three (fun w => .jmp (.abs w)), three (fun w => .eor (.abs w)), three (fun w => .lsr (.abs w)), xxx]

/-- R88, row 5x. -/
def mapRow5 : List (Option Slot) :=
  [two .bvc, two (fun t => .eor (.izy t)), xxx, xxx,
   xxx, two (fun t => .eor (.zpx t)), two (fun t => .lsr (.zpx t)), xxx,
   one .cli, three (fun w => .eor (.aby w)), xxx, xxx,
   xxx, three (fun w => .eor (.abx w)), three (fun w => .lsr (.abx w)), xxx]

/-- R88, row 6x. -/
def mapRow6 : List (Option Slot) :=
  [one .rts, two (fun t => .adc (.izx t)), xxx, xxx,
   xxx, two (fun t => .adc (.zp0 t)), two (fun t => .ror (.zp0 t)), xxx,
   one .pla, two (fun n => .adc (.imm n)), one (.ror .acc), xxx,
   three (fun w => .jmp (.ind w)), three (fun w => .adc (.abs w)), three (fun w => .ror (.abs w)), xxx]

/-- R88, row 7x. -/
def mapRow7 : List (Option Slot) :=
  [two .bvs, two (fun t => .adc (.izy t)), xxx, xxx,
   xxx, two (fun t => .adc (.zpx t)), two (fun t => .ror (.zpx t)), xxx,
   one .sei, three (fun w => .adc (.aby w)), xxx, xxx,
   xxx, three (fun w => .adc (.abx w)), three (fun w => .ror (.abx w)), xxx]

/-- R88, row 8x. -/
def mapRow8 : List (Option Slot) :=
  [xxx, two (fun t => .sta (.izx t)), xxx, xxx,
   two (fun t => .sty (.zp0 t)), two (fun t => .sta (.zp0 t)), two (fun t => .stx (.zp0 t)), xxx,
   one .dey, xxx, one .txa, xxx,
   three (fun w => .sty (.abs w)), three (fun w => .sta (.abs w)), three (fun w => .stx (.abs w)), xxx]

/-- R88, row 9x. -/
def mapRow9 : List (Option Slot) :=
  [two .bcc, two (fun t => .sta (.izy t)), xxx, xxx,
   two (fun t => .sty (.zpx t)), two (fun t => .sta (.zpx t)), two (fun t => .stx (.zpy t)), xxx,
   one .tya, three (fun w => .sta (.aby w)), one .txs, xxx,
   xxx, three (fun w => .sta (.abx w)), xxx, xxx]

/-- R88, row Ax. -/
def mapRowA : List (Option Slot) :=
  [two (fun n => .ldy (.imm n)), two (fun t => .lda (.izx t)), two (fun n => .ldx (.imm n)), xxx,
   two (fun t => .ldy (.zp0 t)), two (fun t => .lda (.zp0 t)), two (fun t => .ldx (.zp0 t)), xxx,
   one .tay, two (fun n => .lda (.imm n)), one .tax, xxx,
   three (fun w => .ldy (.abs w)), three (fun w => .lda (.abs w)), three (fun w => .ldx (.abs w)), xxx]

/-- R88, row Bx. -/
def mapRowB : List (Option Slot) :=
  [two .bcs, two (fun t => .lda (.izy t)), xxx, xxx,
   two (fun t => .ldy (.zpx t)), two (fun t => .lda (.zpx t)), two (fun t => .ldx (.zpy t)), xxx,
   one .clv, three (fun w => .lda (.aby w)), one .tsx, xxx,
   three (fun w => .ldy (.abx w)), three (fun w => .lda (.abx w)), three (fun w => .ldx (.aby w)), xxx]

/-- R88, row Cx. -/
def mapRowC : List (Option Slot) :=
  [two (fun n => .cpy (.imm n)), two (fun t => .cmp (.izx t)), xxx, xxx,
   two (fun t => .cpy (.zp0 t)), two (fun t => .cmp (.zp0 t)), two (fun t => .dec (.zp0 t)), xxx,
   one .iny, two (fun n => .cmp (.imm n)), one .dex, xxx,
   three (fun w => .cpy (.abs w)), three (fun w => .cmp (.abs w)), three (fun w => .dec (.abs w)), xxx]

/-- R88, row Dx. -/
def mapRowD : List (Option Slot) :=
  [two .bne, two (fun t => .cmp (.izy t)), xxx, xxx,
   xxx, two (fun t => .cmp (.zpx t)), two (fun t => .dec (.zpx t)), xxx,
   one .cld, three (fun w => .cmp (.aby w)), xxx, xxx,
   xxx, three (fun w => .cmp (.abx w)), three (fun w => .dec (.abx w)), xxx]

/-- R88, row Ex. -/
def mapRowE : List (Option Slot) :=
  [two (fun n => .cpx (.imm n)), two (fun t => .sbc (.izx t)), xxx, xxx,
   two (fun t => .cpx (.zp0 t)), two (fun t => .sbc (.zp0 t)), two (fun t => .inc (.zp0 t)), xxx,
   one .inx, two (fun n => .sbc (.imm n)), one .nop, xxx,
   three (fun w => .cpx (.abs w)), three (fun w => .sbc (.abs w)), three (fun w => .inc (.abs w)), xxx]

/-- R88, row Fx. -/
def mapRowF : List (Option Slot) :=
  [two .beq, two (fun t => .sbc (.izy t)), xxx, xxx,
   xxx, two (fun t => .sbc (.zpx t)), two (fun t => .inc (.zpx t)), xxx,
   one .sed, three (fun w => .sbc (.aby w)), xxx, xxx,
   xxx, three (fun w => .sbc (.abx w)), three (fun w => .inc (.abx w)), xxx]

/-- R88: the opcode map, rows by high nibble. -/
def opcodeMap : List (List (Option Slot)) :=
  [mapRow0, mapRow1, mapRow2, mapRow3, mapRow4, mapRow5, mapRow6, mapRow7]
    ++ [mapRow8, mapRow9, mapRowA, mapRowB, mapRowC, mapRowD, mapRowE, mapRowF]

end Decode

/-- The cell of an opcode byte; the map has 16 rows of 16 cells (`Laws/Decode.lean`). -/
def cellOf (op : Byte) : Option Slot := (Decode.opcodeMap.getD (op.toNat / 16) []).getD (op.toNat % 16) none

/-- R70, R71, R91: the table entry of an opcode byte, under the launch parameter `modes`. -/
def slotOf (modes : XxxModes) (op : Byte) : Slot := (cellOf op).getD (xxxSlot op (modes.mode op))

/-- Why bytes are no instruction. No opcode byte is illegal (R91), so the only reasons are missing bytes. -/
inductive DecodeError where
  /-- There is no opcode byte at all. -/
  | noBytes
  /-- The bytes end before the operand bytes that opcode `op` needs. -/
  | truncated (op : Byte)
  deriving DecidableEq, Repr

/-- R70: reads one instruction from the front of `bytes` and gives the bytes after it. `modes` is the launch
parameter `xxx_mode`. -/
def decode (modes : XxxModes) : List Byte → Except DecodeError (Instr × List Byte)
  | [] => .error .noBytes
  | op :: rest =>
    match slotOf modes op, rest with
    | .one i, rest => .ok (i, rest)
    | .two f, t :: rest => .ok (f t, rest)
    | .skip f, n :: rest => .ok (f n, rest)
    | .three f, lo :: hi :: rest => .ok (f (word hi lo), rest)
    | .two _, [] => .error (.truncated op)
    | .skip _, [] => .error (.truncated op)
    | .three _, [] => .error (.truncated op)
    | .three _, [_] => .error (.truncated op)

/-! ## The encoder (R89, R92) -/

namespace Decode

/-- The opcode of a form, from R89's list of the eight modes in the order IMM ZP0 ZPX ABS ABX ABY IZX IZY. -/
def aluOpcode (imm zp0 zpx abs abx aby izx izy : Byte) : AluForm → Byte
  | .imm _ => imm
  | .zp0 _ => zp0
  | .zpx _ => zpx
  | .abs _ => abs
  | .abx _ => abx
  | .aby _ => aby
  | .izx _ => izx
  | .izy _ => izy

/-- R89's order for the shifts: ACC ZP0 ZPX ABS ABX. -/
def shiftOpcode (acc zp0 zpx abs abx : Byte) : ShiftForm → Byte
  | .acc => acc
  | .zp0 _ => zp0
  | .zpx _ => zpx
  | .abs _ => abs
  | .abx _ => abx

/-- R89's order for INC and DEC: ZP0 ZPX ABS ABX. -/
def incOpcode (zp0 zpx abs abx : Byte) : IncForm → Byte
  | .zp0 _ => zp0
  | .zpx _ => zpx
  | .abs _ => abs
  | .abx _ => abx

/-- R89's order for CPX and CPY: IMM ZP0 ABS. -/
def cpxOpcode (imm zp0 abs : Byte) : CpxForm → Byte
  | .imm _ => imm
  | .zp0 _ => zp0
  | .abs _ => abs

def ldxOpcode : LdxForm → Byte
  | .imm _ => 0xA2
  | .zp0 _ => 0xA6
  | .zpy _ => 0xB6
  | .abs _ => 0xAE
  | .aby _ => 0xBE

def ldyOpcode : LdyForm → Byte
  | .imm _ => 0xA0
  | .zp0 _ => 0xA4
  | .zpx _ => 0xB4
  | .abs _ => 0xAC
  | .abx _ => 0xBC

def staOpcode : StaForm → Byte
  | .zp0 _ => 0x85
  | .zpx _ => 0x95
  | .abs _ => 0x8D
  | .abx _ => 0x9D
  | .aby _ => 0x99
  | .izx _ => 0x81
  | .izy _ => 0x91

def stxOpcode : StxForm → Byte
  | .zp0 _ => 0x86
  | .zpy _ => 0x96
  | .abs _ => 0x8E

def styOpcode : StyForm → Byte
  | .zp0 _ => 0x84
  | .zpx _ => 0x94
  | .abs _ => 0x8C

def bitOpcode : BitForm → Byte
  | .zp0 _ => 0x24
  | .abs _ => 0x2C

def jmpOpcode : JmpForm → Byte
  | .abs _ => 0x4C
  | .ind _ => 0x6C

/-- The operand bytes of a memory form: one, or two with the low byte first (R41, R70). -/
def memBytes : MemOperand → List Byte
  | .zp0 t | .zpx t | .zpy t | .izx t | .izy t => [t]
  | .abs w | .abx w | .aby w => [lo8 w, hi8 w]

def sourceBytes : Source → List Byte
  | .imm n => [n]
  | .mem m => memBytes m

end Decode

open Decode in
/-- R89 (and R92 for `xxx`): the opcode byte of an instruction. -/
def Instr.opcode : Instr → Byte
  | .lda f => aluOpcode 0xA9 0xA5 0xB5 0xAD 0xBD 0xB9 0xA1 0xB1 f
  | .ldx f => ldxOpcode f
  | .ldy f => ldyOpcode f
  | .sta f => staOpcode f
  | .stx f => stxOpcode f
  | .sty f => styOpcode f
  | .tax => 0xAA
  | .tay => 0xA8
  | .txa => 0x8A
  | .tya => 0x98
  | .tsx => 0xBA
  | .txs => 0x9A
  | .pha => 0x48
  | .php => 0x08
  | .pla => 0x68
  | .plp => 0x28
  | .and f => aluOpcode 0x29 0x25 0x35 0x2D 0x3D 0x39 0x21 0x31 f
  | .eor f => aluOpcode 0x49 0x45 0x55 0x4D 0x5D 0x59 0x41 0x51 f
  | .ora f => aluOpcode 0x09 0x05 0x15 0x0D 0x1D 0x19 0x01 0x11 f
  | .bit f => bitOpcode f
  | .adc f => aluOpcode 0x69 0x65 0x75 0x6D 0x7D 0x79 0x61 0x71 f
  | .sbc f => aluOpcode 0xE9 0xE5 0xF5 0xED 0xFD 0xF9 0xE1 0xF1 f
  | .cmp f => aluOpcode 0xC9 0xC5 0xD5 0xCD 0xDD 0xD9 0xC1 0xD1 f
  | .cpx f => cpxOpcode 0xE0 0xE4 0xEC f
  | .cpy f => cpxOpcode 0xC0 0xC4 0xCC f
  | .inc f => incOpcode 0xE6 0xF6 0xEE 0xFE f
  | .inx => 0xE8
  | .iny => 0xC8
  | .dec f => incOpcode 0xC6 0xD6 0xCE 0xDE f
  | .dex => 0xCA
  | .dey => 0x88
  | .asl f => shiftOpcode 0x0A 0x06 0x16 0x0E 0x1E f
  | .lsr f => shiftOpcode 0x4A 0x46 0x56 0x4E 0x5E f
  | .rol f => shiftOpcode 0x2A 0x26 0x36 0x2E 0x3E f
  | .ror f => shiftOpcode 0x6A 0x66 0x76 0x6E 0x7E f
  | .jmp f => jmpOpcode f
  | .jsr _ => 0x20
  | .rts => 0x60
  | .brk => 0x00
  | .rti => 0x40
  | .bcc _ => 0x90
  | .bcs _ => 0xB0
  | .beq _ => 0xF0
  | .bmi _ => 0x30
  | .bne _ => 0xD0
  | .bpl _ => 0x10
  | .bvc _ => 0x50
  | .bvs _ => 0x70
  | .clc => 0x18
  | .cld => 0xD8
  | .cli => 0x58
  | .clv => 0xB8
  | .sec => 0x38
  | .sed => 0xF8
  | .sei => 0x78
  | .nop => 0xEA
  | .xxx op _ => op

open Decode in
/-- R70: the operand bytes of an instruction, at ascending addresses. -/
def Instr.operandBytes : Instr → List Byte
  | .lda f | .and f | .eor f | .ora f | .adc f | .sbc f | .cmp f => sourceBytes f.source
  | .ldx f => sourceBytes f.source
  | .ldy f => sourceBytes f.source
  | .sta f => memBytes f.operand
  | .stx f => memBytes f.operand
  | .sty f => memBytes f.operand
  | .bit f => sourceBytes f.source
  | .cpx f | .cpy f => sourceBytes f.source
  | .inc f | .dec f => memBytes f.operand
  | .asl f | .lsr f | .rol f | .ror f => (f.operand.map memBytes).getD []
  | .jmp (.abs w) | .jmp (.ind w) | .jsr w => [lo8 w, hi8 w]
  | .bcc t | .bcs t | .beq t | .bmi t | .bne t | .bpl t | .bvc t | .bvs t => [t]
  | .xxx _ .imp | .xxx _ .acc => []
  | .xxx _ (.imm n) | .xxx _ (.rel n) => [n]
  | .xxx _ (.ind w) => [lo8 w, hi8 w]
  | .xxx _ (.mem m) => memBytes m
  | .tax | .tay | .txa | .tya | .tsx | .txs | .pha | .php | .pla | .plp
  | .inx | .iny | .dex | .dey | .rts | .brk | .rti
  | .clc | .cld | .cli | .clv | .sec | .sed | .sei | .nop => []

/-- R70: the bytes of an instruction, opcode first. -/
def encode (i : Instr) : List Byte := i.opcode :: i.operandBytes

/-! ## The host's view of a table row -/

/-- The bytes the hardware stores for a row's word: byte 0 is `w`'s low byte (R70), bits from `nbits` up are 0. -/
def tableBytes (nbits w : Nat) : List Byte :=
  let w := w % 2 ^ nbits
  [BitVec.ofNat 8 w, BitVec.ofNat 8 (w / 256), BitVec.ofNat 8 (w / 65536)]

/-- The instruction the decoder reads from an instruction whose bits are `w`, with the default `xxx_mode`, which
is the one `spec/opcode_table.json` lists (R92). -/
def decodeTableWord (nbits w : Nat) : Option Instr :=
  match decode Machine.defaultXxxModes (tableBytes nbits w) with
  | .ok (i, _) => some i
  | .error _ => none

end Sys2Proof
end

