-- ==== Sys2Proof/Config.lean ====
section
/-! DEFINITION. What is fixed for the machine: the numeric constants of `00_scope.md` R5, the kinds
of launch parameter of R7, and the two values no rule gives (R340's `rgb_lut` and the framebuffer
before its first pixel), which are opaque so that no proof can lean on a value of them. -/

namespace Sys2Proof.Config

/-- R7, R313: nametable mirroring. Four-screen is refused at load (error 620), so it has no value here. -/
inductive Mirroring where
  | horizontal
  | vertical
  deriving DecidableEq, Repr

/-- R271: mapper 0 carries 16 KiB (NROM-128) or 32 KiB (NROM-256) of PRG-ROM. -/
inductive PrgSize where
  | nrom128
  | nrom256
  deriving DecidableEq, Repr

/-- R271: `prgrom_size` in bytes. -/
def PrgSize.bytes : PrgSize → Nat
  | .nrom128 => 16384
  | .nrom256 => 32768

/-- R47: the NMI vector is at `0xFFFA/0xFFFB`. -/
def nmiVector : Addr := 0xFFFA#16
/-- R47: the reset vector is at `0xFFFC/0xFFFD`. -/
def resetVector : Addr := 0xFFFC#16
/-- R47: the IRQ and BRK vector is at `0xFFFE/0xFFFF`. -/
def irqVector : Addr := 0xFFFE#16

/-- R5, R214: an NMI service takes 8 cycles. -/
def nmiBudget : Nat := 8
/-- R5, R215: an IRQ service takes 7 cycles. -/
def irqBudget : Nat := 7
/-- R350: the OAM DMA countdown starts at 513 * 3 = 1539 dots. -/
def dmaDots : Nat := 1539
/-- R5, R407: the sample ring holds 2048 samples. -/
def audioBufferSize : Nat := 2048
/-- R5, R434: `audio_sample_rate()`. -/
def audioSampleRate : Nat := 44100

/-- R6: the `decimal_mode_available` latch is "forced false" on NES parts; the spec fixes it to false,
so no rule of the model reads it: ADC and SBC are binary whatever D holds. -/
def decimalModeAvailable : Bool := false

/-- R340, R7: the fixed 64-entry RGB palette, whose values no rule gives. A FREE VALUE (log entry 7). -/
opaque rgbLut : BitVec 6 → BitVec 24

/-- R310: "the framebuffer is unspecified until written": what a pixel (numbered `256 * y + x`) shows
before it is written. A FREE VALUE (log entry 8). -/
opaque initialPixel : Nat → BitVec 24

end Sys2Proof.Config
end

