-- ==== Sys2Proof/Machine/ApuTables.lean ====
section
/-! DEFINITION. The APU's constant tables, launch parameters of `00_scope.md` R7, with the default `63_apu.md` gives
each. The machine reads them from `State.launch`. Log entry 12. -/

namespace Sys2Proof.Machine

/-- A non-negative rational `num / den`, `den` positive (`Launch.Ok`): `sample_period`, and the entries of the mixer
tables. -/
structure Ratio where
  num : Nat
  den : Nat
  deriving DecidableEq, Repr

/-- The sum, not reduced. -/
def Ratio.add (a b : Ratio) : Ratio := { num := a.num * b.den + b.num * a.den, den := a.den * b.den }

/-- `floor(k * r)`. -/
def Ratio.floorMul (k : Nat) (r : Ratio) : Nat := k * r.num / r.den

/-- R386: `length_table[0..31]`. -/
def defaultLengthTable : Vector Nat 32 :=
  #v[10, 254, 20, 2, 40, 4, 80, 6, 160, 8, 60, 10, 14, 12, 26, 14,
     12, 16, 24, 18, 48, 20, 96, 22, 192, 24, 72, 26, 16, 28, 32, 30]

/-- R390: `duty_table`. -/
def defaultDutyTable : Vector (Vector Bool 8) 4 :=
  #v[#v[false, true, false, false, false, false, false, false],
     #v[false, true, true, false, false, false, false, false],
     #v[false, true, true, true, true, false, false, false],
     #v[true, false, false, true, true, true, true, true]]

/-- R391: `triangle_table` = 15, 14, ..., 1, 0, 0, 1, ..., 14, 15. -/
def defaultTriangleTable : Vector (BitVec 4) 32 :=
  #v[15, 14, 13, 12, 11, 10, 9, 8, 7, 6, 5, 4, 3, 2, 1, 0,
     0, 1, 2, 3, 4, 5, 6, 7, 8, 9, 10, 11, 12, 13, 14, 15]

/-- R392: `noise_period_table`. -/
def defaultNoisePeriodTable : Vector Nat 16 :=
  #v[4, 8, 16, 32, 64, 96, 128, 160, 202, 254, 380, 508, 762, 1016, 2034, 4068]

/-- R405: `pulse_mix[n] = 95.52 / (8128 / n + 100)`, 0 at `n = 0`: that is `95.52 n / (8128 + 100 n)`. -/
def defaultPulseMix : Vector Ratio 31 :=
  ⟨((List.range 31).map (fun n => { num := 9552 * n, den := 100 * (8128 + 100 * n) })).toArray, by simp⟩

/-- R405: `tnd_mix[n] = 163.67 / (24329 / n + 100)`, 0 at `n = 0`: that is `163.67 n / (24329 + 100 n)`. -/
def defaultTndMix : Vector Ratio 203 :=
  ⟨((List.range 203).map (fun n => { num := 16367 * n, den := 100 * (24329 + 100 * n) })).toArray, by simp⟩

end Sys2Proof.Machine
end

