-- ==== Sys2Proof/Machine/State.lean ====
section
/-! DEFINITION. The state of the machine as plain data: the CPU (`10_state.md`), the memories and the
controller (`61_bus_fabric.md`), the PPU (`62_ppu.md` R300), the APU (`63_apu.md` R370), the launch
parameters (`00_scope.md` R7) and the host calls still to come (`70_reset_and_hazards.md` R434); the
reasons a step could stop; and the state after reset. The value written beside a field of `Ppu` and `Apu`
is its power-on value (R310, R410). -/

namespace Sys2Proof.Machine

open Sys2Proof.Config

/-- A byte memory: (address, byte) pairs in the canonical form of `Memory.wf` (`Machine/Memory.lean`). -/
abbrev Memory := List Host.Cell

/-! ## Launch parameters -/

/-- R270, R271, R272: the cartridge in the slot. -/
structure Cartridge where
  /-- false: the slot is empty, every access reads 0 and is dropped (R270, D22). -/
  inserted : Bool
  /-- R271: `prgrom_size`. -/
  prgSize : PrgSize
  /-- `prg_rom`, keyed by offset. -/
  prgRom : Memory
  /-- log2 of `prgram_size` (R7: "power of two or 0"); `none` for 0. -/
  prgRamLog : Option Nat
  /-- `chr_rom` keyed by offset (8192 bytes); `none` when M = 0 (R272). -/
  chrRom : Option Memory
  /-- R7: `mirroring`. -/
  mirroring : Mirroring
  deriving DecidableEq, Repr

/-- R7, R30: the launch parameters, "arguments of the model, fixed for a run". R7's `rgb_lut` has no value in the
spec and is `Config.rgbLut`; its memories are fields of `State`, and its `buttons(t)` is `State.hostCalls`. -/
structure Launch where
  cart : Cartridge
  /-- R92: `xxx_mode`. -/
  xxxMode : XxxModes
  /-- R90: `base_cycles`. -/
  baseCycles : BaseCycles
  /-- R421: the value of `budget` after reset. -/
  resetBudget : Nat
  /-- R430: which master tick of three carries the CPU cycle. -/
  clockPhase : Fin 3
  /-- R400: `frame_step_cycles`; a list too short for the sequence is log entry 22. -/
  frameStepCycles : List Nat
  /-- R406: `sample_period`, in CPU cycles. -/
  samplePeriod : Ratio
  /-- R386: `length_table`. -/
  lengthTable : Vector Nat 32
  /-- R390: `duty_table`. -/
  dutyTable : Vector (Vector Bool 8) 4
  /-- R392: `noise_period_table`. -/
  noisePeriodTable : Vector Nat 16
  /-- R391: `triangle_table`. -/
  triangleTable : Vector (BitVec 4) 32
  /-- R405: `pulse_mix`. -/
  pulseMix : Vector Ratio 31
  /-- R405: `tnd_mix`. -/
  tndMix : Vector Ratio 203
  deriving DecidableEq, Repr

/-- R90: the base count of an opcode byte in this launch. -/
def Launch.cycles (l : Launch) (op : Byte) : Nat := l.baseCycles.count op

/-! ## Host calls (R434) -/

/-- R280: index 0 is player One (`0x4016`), index 1 player Two (`0x4017`). -/
inductive Player where
  | one
  | two
  deriving DecidableEq, Repr

/-- R280: the buttons, bit 7 down to bit 0 of a parallel byte. -/
inductive Button where
  | a | b | select | start | up | down | left | right
  deriving DecidableEq, Repr

/-- R434: the host calls that change the machine once it is running; each lands between two ticks. -/
inductive HostCall where
  /-- `input(player, button, pressed)` (R280). -/
  | input (player : Player) (button : Button) (pressed : Bool)
  /-- `reset()` (R420). -/
  | reset
  /-- `reset_to(pc)` (R420). -/
  | resetTo (pc : Addr)
  /-- `fill_audio(out, n)` (R407). -/
  | fillAudio (n : Nat)
  deriving DecidableEq, Repr

/-! ## Controller surface -/

/-- R280: a parallel and a shift byte per player; "All four bytes are 0 at power-on". -/
structure Pads where
  parallel1 : Byte := 0
  parallel2 : Byte := 0
  shift1 : Byte := 0
  shift2 : Byte := 0
  deriving DecidableEq, Repr

/-! ## PPU -/

/-- R300: one entry of the sprite buffer. -/
structure SpriteEntry where
  x : Byte
  palette : BitVec 3
  priority : Bool
  lsb : Byte
  msb : Byte
  isSpriteZero : Bool
  deriving DecidableEq, Repr

/-- R300: the PPU. `dmaActive` and `dmaCounter` are the OAM DMA state of R350, R351. -/
structure Ppu where
  ctrl : Byte := 0
  mask : Byte := 0
  status : Byte := 0
  oamAddr : Byte := 0
  /-- R309: `V`. -/
  v : BitVec 15 := 0
  /-- R309: `T`. -/
  t : BitVec 15 := 0
  fineX : BitVec 3 := 0
  /-- the write latch `w` -/
  w : Bool := false
  dataBuffer : Byte := 0
  lastWrite : Byte := 0
  dot : Nat := 0
  scanline : Nat := 0
  oddFrame : Bool := false
  frameCount : Nat := 0
  bgLo : BitVec 16 := 0
  bgHi : BitVec 16 := 0
  atLo : BitVec 16 := 0
  atHi : BitVec 16 := 0
  ntByte : Byte := 0
  atBits : BitVec 2 := 0
  ptLo : Byte := 0
  ptHi : Byte := 0
  /-- the sprite buffer, its count the length of the list -/
  sprites : List SpriteEntry := []
  dmaActive : Bool := false
  dmaCounter : Nat := 0
  /-- `nt[0..1][0..1023]`, keyed `1024 * table + offset` -/
  nt : Memory := []
  /-- `pal[0..31]` -/
  pal : Memory := []
  /-- `oam[0..255]` -/
  oam : Memory := []
  /-- the 256 by 240 framebuffer of 24-bit RGB, pixel `256 * y + x`, keys rising; an unlisted pixel has
  not been written (`Config.initialPixel`) -/
  framebuffer : List (Nat × BitVec 24) := []
  deriving DecidableEq, Repr

/-! ## APU -/

/-- R385: an envelope. Its loop bit is the channel's `length_halt` (R372), stored there. -/
structure Envelope where
  period : BitVec 4 := 0
  counter : BitVec 4 := 0
  decay : BitVec 4 := 0
  start : Bool := false
  constantVolume : Bool := false
  deriving DecidableEq, Repr

/-- R387: a sweep unit. -/
structure Sweep where
  enabled : Bool := false
  period : BitVec 3 := 0
  counter : BitVec 3 := 0
  shift : BitVec 3 := 0
  negate : Bool := false
  start : Bool := false
  deriving DecidableEq, Repr

/-- R370, R390: a pulse channel. -/
structure Pulse where
  duty : BitVec 2 := 0
  seqStep : BitVec 3 := 0
  timerPeriod : BitVec 11 := 0
  timer : BitVec 11 := 0
  envelope : Envelope := {}
  length : Nat := 0
  lengthHalt : Bool := false
  sweep : Sweep := {}
  enabled : Bool := false
  deriving DecidableEq, Repr

/-- R370, R391: the triangle channel, with its linear counter (R388). -/
structure Triangle where
  timerPeriod : BitVec 11 := 0
  timer : BitVec 11 := 0
  seqStep : BitVec 5 := 0
  length : Nat := 0
  lengthHalt : Bool := false
  linear : BitVec 7 := 0
  linearReloadValue : BitVec 7 := 0
  linearReload : Bool := false
  enabled : Bool := false
  deriving DecidableEq, Repr

/-- R370, R392: the noise channel; the LFSR is "seeded to 1". -/
structure Noise where
  mode : Bool := false
  periodIndex : BitVec 4 := 0
  timer : Nat := 0
  lfsr : BitVec 15 := 1
  envelope : Envelope := {}
  length : Nat := 0
  lengthHalt : Bool := false
  enabled : Bool := false
  deriving DecidableEq, Repr

/-- R370: the APU. `sampleBucket` counts in units of `1 / samplePeriod.den` CPU cycle; `samples` is the
circular sample buffer, oldest first. -/
structure Apu where
  pulse1 : Pulse := {}
  pulse2 : Pulse := {}
  triangle : Triangle := {}
  noise : Noise := {}
  fiveStep : Bool := false
  irqInhibit : Bool := false
  frameCycle : Nat := 0
  frameStep : Nat := 0
  apuCycle : Nat := 0
  sampleBucket : Nat := 0
  samples : List Byte := []
  dmaPage : Byte := 0
  deriving DecidableEq, Repr

/-! ## The whole machine -/

/-- Every piece of state the spec gives the machine. -/
structure State where
  /-- R10: accumulator. -/
  a : Byte
  /-- R10: index register X. -/
  x : Byte
  /-- R10: index register Y. -/
  y : Byte
  /-- R11: stack pointer, into page 1. -/
  s : Byte
  /-- R17: processor status, bits `N V U B D I Z C` from 7 to 0. -/
  p : Byte
  /-- R12: program counter. -/
  pc : Addr
  /-- R26: the NMI latch. -/
  nmiPending : Bool
  /-- R26: the IRQ latch. -/
  irqPending : Bool
  /-- R27: the halt latch. -/
  halted : Bool
  /-- R28: CPU cycles left of the action in progress; 0 at an instruction boundary. -/
  budget : Nat
  /-- R28: un-halted CPU cycles, modulo 2^64 (`91_not_in_source.md`). -/
  cycleCount : BitVec 64
  /-- R29, R211: the last boundary action was an NMI service. -/
  didNmi : Bool
  /-- R29, R211: the last boundary action was an IRQ service. -/
  didIrq : Bool
  /-- R430: master ticks since reset. -/
  tickCount : Nat
  /-- R260: the 2 KiB CPU RAM, keyed by offset. -/
  ram : Memory
  /-- R271: PRG-RAM, keyed by offset. -/
  prgRam : Memory
  ppu : Ppu
  apu : Apu
  pads : Pads
  launch : Launch
  /-- R434, R7 `buttons(t)`: the host calls to come; the head is made before the next tick. -/
  hostCalls : List (List HostCall)
  deriving DecidableEq, Repr

/-- Why the machine would stop with a fault. It has no constructor because no rule gives a fault: R210
"The CPU raises no synchronous exception of any kind", R49 "No access ever faults, traps or stalls", and
`93_implementation_defined.md` "Nothing in this machine is treated as `fault` or `stuck`". -/
inductive Fault where
  deriving DecidableEq, Repr

/-- Why an instruction would have no meaning. -/
inductive Refusal where
  /-- Raised by a refused arm of `Machine/Dispatch.lean` for an instruction with no meaning yet; safe. No
  arm is refused. -/
  | notModelled (mnemonic : String)
  deriving DecidableEq, Repr

/-- R7: the launch parameters of `State.reset`: every one the spec gives a default has it; the cartridge
is a 32 KiB mapper-0 image that lists nothing (every byte reads 0), 8192 bytes of PRG-RAM, CHR-ROM present,
horizontal mirroring (log entries 1 and 2). -/
def Launch.default : Launch where
  cart :=
    { inserted := true, prgSize := .nrom256, prgRom := [], prgRamLog := some 13, chrRom := some [],
      mirroring := .horizontal }
  xxxMode := defaultXxxModes
  baseCycles := defaultBaseCycles
  resetBudget := 0
  clockPhase := 0
  frameStepCycles := [7457, 14914, 22371, 29828, 37285]
  samplePeriod := { num := 1789773, den := 44100 }
  lengthTable := defaultLengthTable
  dutyTable := defaultDutyTable
  noisePeriodTable := defaultNoisePeriodTable
  triangleTable := defaultTriangleTable
  pulseMix := defaultPulseMix
  tndMix := defaultTndMix

/-- R32, R421, R310, R410, R280: the machine right after `reset()`. PC is the reset vector read from a
cartridge that lists nothing, both bytes 0 (log entry 2); the memories list nothing (log entry 1). -/
def State.reset : State where
  a := 0x00
  x := 0x00
  y := 0x00
  s := 0xFD
  p := 0x24
  pc := 0x0000
  nmiPending := false
  irqPending := false
  halted := false
  budget := 0
  cycleCount := 0
  didNmi := false
  didIrq := false
  tickCount := 0
  ram := []
  prgRam := []
  ppu := {}
  apu := {}
  pads := {}
  launch := Launch.default
  hostCalls := []

end Sys2Proof.Machine
end

