-- ==== Sys2Proof/Machine/Memory.lean ====
section
/-! DEFINITION. Byte memories as lists of cells in one canonical form, and the framebuffer, which is kept
the same way. -/

namespace Sys2Proof.Machine

/-- What an address with no cell reads as. ROM images, empty slots and unowned addresses read 0 by R49 and
R271; for the RAMs, whose power-on contents R33 leaves open, it is the model's choice (log entry 1). -/
def Memory.unlisted : Byte := 0

/-- The canonical form: addresses strictly rising, no cell equal to what an unlisted address reads as. -/
abbrev Memory.wf (m : Memory) : Prop :=
  List.Pairwise (fun x y => x.1 < y.1) m ∧ ∀ c ∈ m, c.2 ≠ Memory.unlisted

/-- R260: the byte stored at `k`. -/
def Memory.read : Memory → Nat → Byte
  | [], _ => Memory.unlisted
  | (j, b) :: rest, k => if j = k then b else Memory.read rest k

/-- R260: `m` with `b` stored at `k`. Storing the unlisted value takes the cell out. -/
def Memory.write : Memory → Nat → Byte → Memory
  | [], k, b => if b = Memory.unlisted then [] else [(k, b)]
  | (j, c) :: rest, k, b =>
    if j = k then
      if b = Memory.unlisted then Memory.write rest k b else (k, b) :: rest
    else if k < j ∧ b ≠ Memory.unlisted then (k, b) :: (j, c) :: rest
    else (j, c) :: Memory.write rest k b

/-- A framebuffer with pixel `k` set to `rgb`; keys stay rising. -/
def Frame.put : List (Nat × BitVec 24) → Nat → BitVec 24 → List (Nat × BitVec 24)
  | [], k, rgb => [(k, rgb)]
  | (j, c) :: rest, k, rgb =>
    if j = k then (k, rgb) :: rest
    else if k < j then (k, rgb) :: (j, c) :: rest
    else (j, c) :: Frame.put rest k rgb

/-- R355, R310: what pixel `k` shows; before it is written, a value no rule gives. -/
def Frame.get : List (Nat × BitVec 24) → Nat → BitVec 24
  | [], k => Config.initialPixel k
  | (j, c) :: rest, k => if j = k then c else Frame.get rest k

end Sys2Proof.Machine
end

