-- ==== Sys2Proof/Machine/Apu.lean ====
section
/-! DEFINITION. The APU (`63_apu.md`): its registers `0x4000-0x4015`, and one cycle.
Every function maps an `Apu` to an `Apu`; the frame IRQ is reported as a Bool that `Machine/Boundary.lean`
turns into the signal. A function that reads a launch parameter takes the `Launch`. -/

namespace Sys2Proof.Machine

/-- The length a load writes: `length_table[b[7:3]]` (R375, R378, R381). -/
def Launch.lengthLoad (l : Launch) (b : Byte) : Nat := l.lengthTable[(b.extractLsb' 3 5).toNat]'(BitVec.isLt _)

/-! ## Registers (R372 to R384) -/

/-- R372: `0x4000`, `0x4004`. -/
def Pulse.writeControl (c : Pulse) (b : Byte) : Pulse :=
  { c with
    duty := b.extractLsb' 6 2
    lengthHalt := b.getLsbD 5
    envelope := { c.envelope with constantVolume := b.getLsbD 4, period := b.extractLsb' 0 4 } }

/-- R373: `0x4001`, `0x4005`. -/
def Pulse.writeSweep (c : Pulse) (b : Byte) : Pulse :=
  { c with
    sweep :=
      { c.sweep with
        enabled := b.getLsbD 7, period := b.extractLsb' 4 3, negate := b.getLsbD 3
        shift := b.extractLsb' 0 3, start := true } }

/-- R374, R377: `timer_period[7:0] <- b`. -/
def setPeriodLow (t : BitVec 11) (b : Byte) : BitVec 11 := t.extractLsb' 8 3 ++ b

/-- R375, R378: `timer_period[10:8] <- b[2:0]`. -/
def setPeriodHigh (t : BitVec 11) (b : Byte) : BitVec 11 := b.extractLsb' 0 3 ++ t.extractLsb' 0 8

/-- R374: `0x4002`, `0x4006`. -/
def Pulse.writeTimerLow (c : Pulse) (b : Byte) : Pulse :=
  { c with timerPeriod := setPeriodLow c.timerPeriod b }

/-- R375: `0x4003`, `0x4007`. -/
def Pulse.writeTimerHigh (l : Launch) (c : Pulse) (b : Byte) : Pulse :=
  { c with
    timerPeriod := setPeriodHigh c.timerPeriod b
    length := if c.enabled then l.lengthLoad b else c.length
    seqStep := 0
    envelope := { c.envelope with start := true } }

/-- R376: `0x4008`. -/
def Triangle.writeControl (c : Triangle) (b : Byte) : Triangle :=
  { c with lengthHalt := b.getLsbD 7, linearReloadValue := b.extractLsb' 0 7 }

/-- R377: `0x400A`. -/
def Triangle.writeTimerLow (c : Triangle) (b : Byte) : Triangle :=
  { c with timerPeriod := setPeriodLow c.timerPeriod b }

/-- R378: `0x400B`. -/
def Triangle.writeTimerHigh (l : Launch) (c : Triangle) (b : Byte) : Triangle :=
  { c with
    timerPeriod := setPeriodHigh c.timerPeriod b
    length := if c.enabled then l.lengthLoad b else c.length
    linearReload := true }

/-- R379: `0x400C`. -/
def Noise.writeControl (c : Noise) (b : Byte) : Noise :=
  { c with
    lengthHalt := b.getLsbD 5
    envelope := { c.envelope with constantVolume := b.getLsbD 4, period := b.extractLsb' 0 4 } }

/-- R380: `0x400E`. -/
def Noise.writePeriod (c : Noise) (b : Byte) : Noise :=
  { c with mode := b.getLsbD 7, periodIndex := b.extractLsb' 0 4 }

/-- R381: `0x400F`. -/
def Noise.writeLength (l : Launch) (c : Noise) (b : Byte) : Noise :=
  { c with
    length := if c.enabled then l.lengthLoad b else c.length
    envelope := { c.envelope with start := true } }

/-- R384: the enable bit of a channel; a channel being disabled has its length counter set to 0. -/
def Pulse.setEnabled (c : Pulse) (on : Bool) : Pulse :=
  { c with enabled := on, length := if on then c.length else 0 }

def Triangle.setEnabled (c : Triangle) (on : Bool) : Triangle :=
  { c with enabled := on, length := if on then c.length else 0 }

def Noise.setEnabled (c : Noise) (on : Bool) : Noise :=
  { c with enabled := on, length := if on then c.length else 0 }

/-- R384: `0x4015`, write. -/
def Apu.writeEnable (u : Apu) (b : Byte) : Apu :=
  { u with
    pulse1 := u.pulse1.setEnabled (b.getLsbD 0)
    pulse2 := u.pulse2.setEnabled (b.getLsbD 1)
    triangle := u.triangle.setEnabled (b.getLsbD 2)
    noise := u.noise.setEnabled (b.getLsbD 3) }

/-- R384: `0x4015`, read: the four length-counter-nonzero flags. -/
def Apu.status (u : Apu) : Byte :=
  BitVec.ofBool false ++ BitVec.ofBool false ++ BitVec.ofBool false ++ BitVec.ofBool false
    ++ BitVec.ofBool (u.noise.length != 0) ++ BitVec.ofBool (u.triangle.length != 0)
    ++ BitVec.ofBool (u.pulse2.length != 0) ++ BitVec.ofBool (u.pulse1.length != 0)

/-- R371, R384: a read of register `0x4000 + r`; all but `0x4015` read 0. -/
def Apu.readReg (u : Apu) (r : Nat) : Byte := if r = 0x15 then u.status else 0

/-- R372 to R384: a write of register `0x4000 + r`. `0x4009`, `0x400D` and `0x4010-0x4013` are accepted and
ignored (R382); the broadcast that a write of `0x4014` makes is in `Machine/Ops.lean` (R383). -/
def Apu.writeReg (l : Launch) (u : Apu) (r : Nat) (b : Byte) : Apu :=
  match r with
  | 0x00 => { u with pulse1 := u.pulse1.writeControl b }
  | 0x01 => { u with pulse1 := u.pulse1.writeSweep b }
  | 0x02 => { u with pulse1 := u.pulse1.writeTimerLow b }
  | 0x03 => { u with pulse1 := u.pulse1.writeTimerHigh l b }
  | 0x04 => { u with pulse2 := u.pulse2.writeControl b }
  | 0x05 => { u with pulse2 := u.pulse2.writeSweep b }
  | 0x06 => { u with pulse2 := u.pulse2.writeTimerLow b }
  | 0x07 => { u with pulse2 := u.pulse2.writeTimerHigh l b }
  | 0x08 => { u with triangle := u.triangle.writeControl b }
  | 0x0A => { u with triangle := u.triangle.writeTimerLow b }
  | 0x0B => { u with triangle := u.triangle.writeTimerHigh l b }
  | 0x0C => { u with noise := u.noise.writeControl b }
  | 0x0E => { u with noise := u.noise.writePeriod b }
  | 0x0F => { u with noise := u.noise.writeLength l b }
  | 0x14 => { u with dmaPage := b }
  | 0x15 => u.writeEnable b
  | _ => u

/-- R402: the effect of `APU_FRC(flag)`, with the flag's `m` and `i` as two Bools. -/
def Apu.setFrameMode (u : Apu) (m i : Bool) : Apu :=
  { u with fiveStep := m, irqInhibit := i, frameCycle := 0, frameStep := 0 }

/-! ## Units -/

/-- R385: an envelope clock; `loop` is the channel's `length_halt`. -/
def Envelope.clock (e : Envelope) (loop : Bool) : Envelope :=
  if e.start then { e with start := false, decay := 15, counter := e.period }
  else if 0 < e.counter.toNat then { e with counter := e.counter - 1 }
  else
    { e with
      counter := e.period
      decay := if 0 < e.decay.toNat then e.decay - 1 else if loop then 15 else e.decay }

/-- R385: "either the constant-volume nibble or the envelope decay (0-15)". -/
def Envelope.volume (e : Envelope) : BitVec 4 := if e.constantVolume then e.period else e.decay

/-- R386: a length clock. -/
def lengthClock (length : Nat) (halt : Bool) : Nat :=
  if 0 < length ∧ halt = false then length - 1 else length

/-- R387: the sweep's target period; channel 1 subtracts an extra 1 in negate mode. In Nat: where R387 uses
it, `shift > 0` and `timer_period >= 8`, so the subtraction does not run below 0. -/
def sweepTarget (c : Pulse) (channelOne : Bool) : Nat :=
  let delta := c.timerPeriod.toNat / 2 ^ c.sweep.shift.toNat
  if c.sweep.negate then c.timerPeriod.toNat - delta - (if channelOne then 1 else 0)
  else c.timerPeriod.toNat + delta

/-- R387: a sweep clock. -/
def Pulse.sweepClock (c : Pulse) (channelOne : Bool) : Pulse :=
  let target := sweepTarget c channelOne
  let moves := c.sweep.counter = 0 ∧ c.sweep.enabled = true ∧ 0 < c.sweep.shift.toNat
    ∧ 8 ≤ c.timerPeriod.toNat ∧ target ≤ 0x7FF
  { c with
    timerPeriod := if moves then BitVec.ofNat 11 target else c.timerPeriod
    sweep :=
      if c.sweep.counter = 0 ∨ c.sweep.start = true then
        { c.sweep with counter := c.sweep.period, start := false }
      else { c.sweep with counter := c.sweep.counter - 1 } }

/-- R388: the linear counter, clocked with the envelopes. -/
def Triangle.linearClock (c : Triangle) : Triangle :=
  { c with
    linear := if c.linearReload then c.linearReloadValue
      else if 0 < c.linear.toNat then c.linear - 1 else c.linear
    linearReload := if c.lengthHalt then c.linearReload else false }

/-! ## Timers and outputs -/

/-- R390: `PulseTimerTick(p)`. -/
def Pulse.timerTick (c : Pulse) : Pulse :=
  if c.timer = 0 then { c with timer := c.timerPeriod, seqStep := c.seqStep + 1 }
  else { c with timer := c.timer - 1 }

/-- R390: a pulse channel's output. -/
def Pulse.output (l : Launch) (c : Pulse) : BitVec 4 :=
  if (l.dutyTable[c.duty.toNat]'c.duty.isLt)[c.seqStep.toNat]'c.seqStep.isLt = true ∧ 0 < c.length
      ∧ 8 ≤ c.timerPeriod.toNat ∧ c.timerPeriod.toNat ≤ 0x7FF ∧ c.enabled = true then
    c.envelope.volume
  else 0

/-- R391: `TriangleTimerTick()`. -/
def Triangle.timerTick (c : Triangle) : Triangle :=
  if c.timer = 0 then
    { c with
      timer := c.timerPeriod
      seqStep := if 0 < c.length ∧ 0 < c.linear.toNat then c.seqStep + 1 else c.seqStep }
  else { c with timer := c.timer - 1 }

/-- R391: the triangle channel's output. -/
def Triangle.output (l : Launch) (c : Triangle) : BitVec 4 := l.triangleTable[c.seqStep.toNat]'c.seqStep.isLt

/-- R392: one shift of the LFSR, the feedback from bit 0 and bit 6 (mode 1) or bit 1 (mode 0) into bit 14. -/
def lfsrShift (mode : Bool) (r : BitVec 15) : BitVec 15 :=
  let fb := r.getLsbD 0 ^^ (if mode then r.getLsbD 6 else r.getLsbD 1)
  (r >>> 1) ||| ((BitVec.ofBool fb).setWidth 15 <<< 14)

/-- R392: `NoiseTimerTick()`. -/
def Noise.timerTick (l : Launch) (c : Noise) : Noise :=
  if c.timer = 0 then
    { c with timer := l.noisePeriodTable[c.periodIndex.toNat]'c.periodIndex.isLt, lfsr := lfsrShift c.mode c.lfsr }
  else { c with timer := c.timer - 1 }

/-- R392: the noise channel's output. -/
def Noise.output (c : Noise) : BitVec 4 :=
  if c.lfsr.getLsbD 0 = true ∨ c.length = 0 ∨ c.enabled = false then 0 else c.envelope.volume

/-! ## Mixer and samples (R405 to R407) -/

/-- R405: the index of the pulse mixer entry, at most 30. -/
def pulseMixIndex (p1 p2 : BitVec 4) : Nat := p1.toNat + p2.toNat

/-- R405: the index of the triangle and noise mixer entry, the DMC term 0: at most 75. -/
def tndMixIndex (tri noise : BitVec 4) : Nat := 3 * tri.toNat + 2 * noise.toNat

/-- R405: `level = pulse_mix[out_p1 + out_p2] + tnd_mix[3*out_tri + 2*out_noise]`. -/
def mixLevel (l : Launch) (p1 p2 tri noise : BitVec 4) : Ratio :=
  (l.pulseMix[pulseMixIndex p1 p2]'(by unfold pulseMixIndex; omega)).add
    (l.tndMix[tndMixIndex tri noise]'(by unfold tndMixIndex; omega))

/-- R405: the mixed 8-bit sample, `min(255, floor(256 * level))`, in exact arithmetic. -/
def Apu.sample (l : Launch) (u : Apu) : Byte :=
  let level := mixLevel l (u.pulse1.output l) (u.pulse2.output l) (u.triangle.output l) u.noise.output
  BitVec.ofNat 8 (min 255 (level.floorMul 256))

/-- R407: "FIFO with overflow dropping the oldest". -/
def pushSample (samples : List Byte) (b : Byte) : List Byte :=
  (samples ++ [b]).drop (samples.length + 1 - Config.audioBufferSize)

/-- R406: `SampleTick()`. -/
def Apu.sampleTick (l : Launch) (u : Apu) : Apu :=
  let bucket := u.sampleBucket + l.samplePeriod.den
  if l.samplePeriod.num ≤ bucket then
    { u with sampleBucket := bucket - l.samplePeriod.num, samples := pushSample u.samples (u.sample l) }
  else { u with sampleBucket := bucket }

/-! ## Frame counter (R400, R401) -/

/-- R401, column E: both pulse envelopes, the noise envelope and the triangle linear counter. -/
def Apu.clockEnvelopes (u : Apu) : Apu :=
  { u with
    pulse1 := { u.pulse1 with envelope := u.pulse1.envelope.clock u.pulse1.lengthHalt }
    pulse2 := { u.pulse2 with envelope := u.pulse2.envelope.clock u.pulse2.lengthHalt }
    noise := { u.noise with envelope := u.noise.envelope.clock u.noise.lengthHalt }
    triangle := u.triangle.linearClock }

/-- R386: a pulse channel's length clock. -/
def Pulse.lengthTick (c : Pulse) : Pulse := { c with length := lengthClock c.length c.lengthHalt }

/-- R401, column L: the four length counters and both sweeps. -/
def Apu.clockLengths (u : Apu) : Apu :=
  { u with
    pulse1 := u.pulse1.lengthTick.sweepClock true
    pulse2 := u.pulse2.lengthTick.sweepClock false
    triangle := { u.triangle with length := lengthClock u.triangle.length u.triangle.lengthHalt }
    noise := { u.noise with length := lengthClock u.noise.length u.noise.lengthHalt } }

/-- R401: `FrameStep(k)` but for its broadcast; the two rows of the rule's table. -/
def Apu.runFrameStep (u : Apu) (k : Nat) : Apu :=
  match u.fiveStep, k with
  | false, 0 => u.clockEnvelopes
  | false, 1 => u.clockEnvelopes.clockLengths
  | false, 2 => u.clockEnvelopes
  | false, 3 => u.clockEnvelopes.clockLengths
  | true, 0 => u.clockEnvelopes
  | true, 1 => u.clockEnvelopes.clockLengths
  | true, 2 => u.clockEnvelopes
  | true, 4 => u.clockEnvelopes.clockLengths
  | _, _ => u

/-- R400: this cycle reaches the current step of the sequence. DESIGN CHOICE (log entry 22): where
`frame_step_cycles` has no entry for the step, the step is never due. -/
def Apu.frameStepDue (l : Launch) (u : Apu) : Bool :=
  l.frameStepCycles[u.frameStep]? == some (u.frameCycle + 1)

/-- R400: `FrameCounterTick()`. -/
def Apu.frameCounterTick (l : Launch) (u : Apu) : Apu :=
  let q : Apu := { u with frameCycle := u.frameCycle + 1 }
  if u.frameStepDue l then
    let q := q.runFrameStep u.frameStep
    if u.frameStep + 1 = (if u.fiveStep then 5 else 4) then { q with frameStep := 0, frameCycle := 0 }
    else { q with frameStep := u.frameStep + 1 }
  else q

/-- R401: `CPU_IRQ` is broadcast on this cycle: the last step of the 4-step sequence, inhibit clear. -/
def Apu.raisesIrq (l : Launch) (u : Apu) : Bool :=
  u.frameStepDue l && u.frameStep == 3 && !u.fiveStep && !u.irqInhibit

/-! ## One cycle (R371) -/

/-- R371: the timers; the triangle every cycle, pulse and noise on even cycles. -/
def Apu.timerTicks (l : Launch) (u : Apu) : Apu :=
  if u.apuCycle % 2 = 0 then
    { u with
      triangle := u.triangle.timerTick, pulse1 := u.pulse1.timerTick
      pulse2 := u.pulse2.timerTick, noise := u.noise.timerTick l }
  else { u with triangle := u.triangle.timerTick }

/-- R371: `ApuCycle()`. The broadcast of R401 is `raisesIrq`. -/
def Apu.cycle (l : Launch) (u : Apu) : Apu :=
  let u := ((u.timerTicks l).frameCounterTick l).sampleTick l
  { u with apuCycle := u.apuCycle + 1 }

end Sys2Proof.Machine
end

