-- ==== Sys2Proof/Machine/Update.lean ====
section
/-! DEFINITION. One named update per field of `State` that an operation writes; `Laws/State.lean` says what
each leaves alone. -/

namespace Sys2Proof.Machine

def State.setA (st : State) (v : Byte) : State := { st with a := v }
def State.setX (st : State) (v : Byte) : State := { st with x := v }
def State.setY (st : State) (v : Byte) : State := { st with y := v }
def State.setS (st : State) (v : Byte) : State := { st with s := v }
def State.setP (st : State) (v : Byte) : State := { st with p := v }
def State.setPc (st : State) (v : Addr) : State := { st with pc := v }
def State.setNmiPending (st : State) (v : Bool) : State := { st with nmiPending := v }
def State.setIrqPending (st : State) (v : Bool) : State := { st with irqPending := v }
def State.setHalted (st : State) (v : Bool) : State := { st with halted := v }
def State.setBudget (st : State) (v : Nat) : State := { st with budget := v }
def State.setCycleCount (st : State) (v : BitVec 64) : State := { st with cycleCount := v }
def State.setDidNmi (st : State) (v : Bool) : State := { st with didNmi := v }
def State.setDidIrq (st : State) (v : Bool) : State := { st with didIrq := v }
def State.setTickCount (st : State) (v : Nat) : State := { st with tickCount := v }
def State.setRam (st : State) (v : Memory) : State := { st with ram := v }
def State.setPrgRam (st : State) (v : Memory) : State := { st with prgRam := v }
def State.setPpu (st : State) (v : Ppu) : State := { st with ppu := v }
def State.setApu (st : State) (v : Apu) : State := { st with apu := v }
def State.setPads (st : State) (v : Pads) : State := { st with pads := v }
def State.setHostCalls (st : State) (v : List (List HostCall)) : State := { st with hostCalls := v }

end Sys2Proof.Machine
end

