-- ==== Sys2Proof/Machine/Flags.lean ====
section
/-! DEFINITION. The flags of P (`10_state.md` R17 to R24) and every flag computation: `SetZN` (R20),
addition with carry (R140), comparison (R142), BIT (R134), and the bits PHP, PLP, RTI and interrupt entry
force (R121, R123, R213). -/

namespace Sys2Proof.Machine

/-- R17: the flags. -/
inductive Flag where
  | c | z | i | d | b | u | v | n
  deriving DecidableEq, Repr

/-- R17: "C, Z, I, D, B, U, V, N from bit 0 to 7". -/
def Flag.index : Flag → Nat
  | .c => 0
  | .z => 1
  | .i => 2
  | .d => 3
  | .b => 4
  | .u => 5
  | .v => 6
  | .n => 7

/-- The value of a flag in a status byte. -/
def flagOf (p : Byte) (f : Flag) : Bool := p.getLsbD f.index

/-- A status byte with one flag written and the other seven as they were. -/
def putFlag (p : Byte) (f : Flag) (b : Bool) : Byte := putBit p f.index b

/-- `P.f`. -/
def State.flag (s : State) (f : Flag) : Bool := flagOf s.p f

/-- `P.f <- b`. -/
def State.setFlag (s : State) (f : Flag) (b : Bool) : State := s.setP (putFlag s.p f b)

/-- R20: `SetZN(v)`: "Z mirrors `result == 0`; N mirrors `result & 0x80`." -/
def State.setZN (s : State) (v : Byte) : State := (s.setFlag .z (v == 0)).setFlag .n v.msb

/-! ## Addition (R140, R141) -/

/-- R140: the 9-bit sum of two bytes and a carry. -/
def addWithCarry (a m : Byte) (c : Bool) : BitVec 9 :=
  a.setWidth 9 + m.setWidth 9 + (BitVec.ofBool c).setWidth 9

/-- R140: the 8-bit result, `sum[7:0]`. -/
def addResult (a m : Byte) (c : Bool) : Byte := (addWithCarry a m c).setWidth 8

/-- R140: "C to the 9th-bit carry". -/
def addCarry (a m : Byte) (c : Bool) : Bool := (addWithCarry a m c).getLsbD 8

/-- R140: "V to `(~(a^m) & (a^r)) & 0x80`". -/
def addOverflow (a m : Byte) (c : Bool) : Bool :=
  ((~~~ (a ^^^ m)) &&& (a ^^^ addResult a m c)).getLsbD 7

/-- R140: the flags and the accumulator after adding `m` to A. R141 passes the complemented operand. -/
def State.addToA (s : State) (m : Byte) : State :=
  let a := s.a
  let c := s.flag .c
  let s := (s.setFlag .c (addCarry a m c)).setFlag .v (addOverflow a m c)
  (s.setA (addResult a m c)).setZN (addResult a m c)

/-! ## Comparison and BIT (R142, R134) -/

/-- R142: "Compares set C to `reg >= m`, Z to `reg == m`, N to `(reg - m) & 0x80`." -/
def State.compareWith (s : State) (reg m : Byte) : State :=
  ((s.setFlag .c (decide (m.toNat ≤ reg.toNat))).setFlag .z (reg == m)).setFlag .n (reg - m).msb

/-- R134: Z from `A & m`, N and V from bits 7 and 6 of `m`. -/
def State.testBits (s : State) (m : Byte) : State :=
  ((s.setFlag .z (s.a &&& m == 0)).setFlag .n (m.getLsbD 7)).setFlag .v (m.getLsbD 6)

/-! ## P on the stack (R121, R123, R173, R174, R213) -/

/-- R121: the byte PHP pushes, `P | 0x30`. -/
def pushedByPhp (p : Byte) : Byte := p ||| 0x30

/-- R123, R174: P after pulling `m`, `(m & 0xCF) | (P & 0x10) | 0x20`: B kept, U forced to 1. -/
def pulledStatus (p m : Byte) : Byte := (m &&& 0xCF) ||| (p &&& 0x10) ||| 0x20

/-- R213, R173: P as an entry leaves it before the push: B cleared (an interrupt) or set (BRK), I set. -/
def entryStatus (p : Byte) (b : Bool) : Byte := putFlag (putFlag p .b b) .i true

end Sys2Proof.Machine
end

