-- ==== Sys2Proof/Machine/Ppu.lean ====
section
/-! DEFINITION. The PPU (`62_ppu.md`): its bus and memories, its eight registers, and one dot. Every
function here maps a `Ppu` to a `Ppu`; what the PPU does to the CPU (NMI, the end of a DMA halt) it
reports as a Bool that `Machine/Boundary.lean` turns into the signal. -/

namespace Sys2Proof.Machine

open Sys2Proof.Config

/-! ## Fields of V and T (R309) -/

/-- R309: bits 4-0. -/
def coarseX (v : BitVec 15) : BitVec 5 := v.extractLsb' 0 5
/-- R309: bits 9-5. -/
def coarseY (v : BitVec 15) : BitVec 5 := v.extractLsb' 5 5
/-- R309: bit 10. -/
def nametableX (v : BitVec 15) : Bool := v.getLsbD 10
/-- R309: bit 11. -/
def nametableY (v : BitVec 15) : Bool := v.getLsbD 11
/-- R309: bits 14-12. -/
def fineY (v : BitVec 15) : BitVec 3 := v.extractLsb' 12 3

def setCoarseX (v : BitVec 15) (c : BitVec 5) : BitVec 15 := v.extractLsb' 5 10 ++ c
def setCoarseY (v : BitVec 15) (c : BitVec 5) : BitVec 15 := v.extractLsb' 10 5 ++ c ++ v.extractLsb' 0 5
def setNametableX (v : BitVec 15) (b : Bool) : BitVec 15 := putBit v 10 b
def setNametableY (v : BitVec 15) (b : Bool) : BitVec 15 := putBit v 11 b
def setFineY (v : BitVec 15) (f : BitVec 3) : BitVec 15 := f ++ v.extractLsb' 0 12

/-! ## The PPU bus (R312 to R314) -/

/-- R272: a pattern-table read, "CHR-ROM at `addr & (chrrom_size - 1)`"; 0 with no CHR-ROM or no cartridge. -/
def Cartridge.chrRead (c : Cartridge) (off : Nat) : Byte :=
  if c.inserted then
    match c.chrRom with
    | some m => m.read (off % 8192)
    | none => 0
  else 0

/-- R313: which of the two 1-KiB tables serves PPU address `a`. -/
def nametableSelect (m : Mirroring) (a : Nat) : Nat :=
  match m with
  | .horizontal => a / 2048 % 2
  | .vertical => a / 1024 % 2

/-- R312, R313: the key in `nt` of PPU address `a`. -/
def nametableKey (m : Mirroring) (a : Nat) : Nat := 1024 * nametableSelect m a + a % 1024

/-- R314: palette index of PPU address `a`, `0x10, 0x14, 0x18, 0x1C` folded onto `0x00, 0x04, 0x08, 0x0C`. -/
def paletteIndex (a : Nat) : Nat :=
  let i := a % 32
  if i = 16 ∨ i = 20 ∨ i = 24 ∨ i = 28 then i - 16 else i

/-- R314: a palette read, masked with `0x30` under greyscale. -/
def Ppu.paletteRead (p : Ppu) (a : Nat) : Byte :=
  p.pal.read (paletteIndex a) &&& (if p.mask.getLsbD 0 then 0x30 else 0xFF)

/-- R312: `PpuRead(a)`. -/
def Ppu.busRead (c : Cartridge) (p : Ppu) (a : BitVec 14) : Byte :=
  let n := a.toNat
  if n < 0x2000 then c.chrRead n
  else if n < 0x3F00 then p.nt.read (nametableKey c.mirroring n)
  else p.paletteRead n

/-- R312: `PpuWrite(a, b)`. Pattern-table writes are no-ops (R272). -/
def Ppu.busWrite (c : Cartridge) (p : Ppu) (a : BitVec 14) (b : Byte) : Ppu :=
  let n := a.toNat
  if n < 0x2000 then p
  else if n < 0x3F00 then { p with nt := p.nt.write (nametableKey c.mirroring n) b }
  else { p with pal := p.pal.write (paletteIndex n) b }

/-! ## The registers (R300 to R308) -/

/-- R307: `a = V & 0x3FFF`. -/
def Ppu.dataAddr (p : Ppu) : BitVec 14 := p.v.setWidth 14

/-- R307: V after a PPUDATA access, 1 or 32 further (R301 bit 2), modulo 2^15. -/
def Ppu.advanceV (p : Ppu) : Ppu :=
  { p with v := p.v + (if p.ctrl.getLsbD 2 then 32 else 1) }

/-- R303: PPUSTATUS. -/
def Ppu.readStatus (p : Ppu) : Byte × Ppu :=
  ((p.status &&& 0xE0) ||| (p.lastWrite &&& 0x1F), { p with status := putBit p.status 7 false, w := false })

/-- R307: PPUDATA, read. A palette read bypasses the buffer and fills it with the byte read (D40). -/
def Ppu.readData (c : Cartridge) (p : Ppu) : Byte × Ppu :=
  let now := p.busRead c p.dataAddr
  let value := if p.dataAddr.toNat < 0x3F00 then p.dataBuffer else now
  (value, Ppu.advanceV { p with dataBuffer := now })

/-- R300: a CPU read of register `r`. The write-only registers (0, 1, 3, 5, 6) read 0 with no effect. -/
def Ppu.readReg (c : Cartridge) (p : Ppu) (r : Nat) : Byte × Ppu :=
  match r with
  | 2 => p.readStatus
  | 4 => (p.oam.read p.oamAddr.toNat, p)
  | 7 => p.readData c
  | _ => (0, p)

/-- R301: PPUCTRL. -/
def Ppu.writeCtrl (p : Ppu) (b : Byte) : Ppu :=
  { p with ctrl := b, t := setNametableY (setNametableX p.t (b.getLsbD 0)) (b.getLsbD 1) }

/-- R305: OAMDATA, write. -/
def Ppu.writeOam (p : Ppu) (b : Byte) : Ppu :=
  { p with oam := p.oam.write p.oamAddr.toNat b, oamAddr := p.oamAddr + 1 }

/-- R308: PPUSCROLL. -/
def Ppu.writeScroll (p : Ppu) (b : Byte) : Ppu :=
  if p.w then
    { p with t := setFineY (setCoarseY p.t (b.extractLsb' 3 5)) (b.extractLsb' 0 3), w := false }
  else
    { p with t := setCoarseX p.t (b.extractLsb' 3 5), fineX := b.extractLsb' 0 3, w := true }

/-- R306: PPUADDR. The first write clears bit 14 of T. -/
def Ppu.writeAddr (p : Ppu) (b : Byte) : Ppu :=
  if p.w then
    let t : BitVec 15 := (p.t &&& 0x7F00) ||| b.setWidth 15
    { p with t := t, v := t, w := false }
  else
    { p with t := (p.t &&& 0x00FF) ||| ((b &&& 0x3F).setWidth 15 <<< 8), w := true }

/-- R307: PPUDATA, write. -/
def Ppu.writeData (c : Cartridge) (p : Ppu) (b : Byte) : Ppu :=
  (p.busWrite c p.dataAddr b).advanceV

/-- R300: a CPU write of register `r`; "every write, to any of the eight, first does `last_write <- byte`". -/
def Ppu.writeReg (c : Cartridge) (p : Ppu) (r : Nat) (b : Byte) : Ppu :=
  let q : Ppu := { p with lastWrite := b }
  match r with
  | 0 => q.writeCtrl b
  | 1 => { q with mask := b }
  | 3 => { q with oamAddr := b }
  | 4 => q.writeOam b
  | 5 => q.writeScroll b
  | 6 => q.writeAddr b
  | 7 => q.writeData c b
  | _ => q

/-! ## One dot (R320) -/

/-- R302: "Rendering is enabled iff either background-enable or sprite-enable is set". -/
def Ppu.rendering (p : Ppu) : Bool := p.mask.getLsbD 3 || p.mask.getLsbD 4

/-- R320: rendering is enabled and the line is visible or the pre-render line. -/
def Ppu.onRenderLine (p : Ppu) : Bool :=
  p.rendering && (decide (p.scanline ≤ 239) || p.scanline == 261)

/-- R351: `CPU_RSM` is broadcast on this dot. -/
def Ppu.resumesCpu (p : Ppu) : Bool := p.dmaActive && p.dmaCounter == 0

/-- R351: the DMA countdown. -/
def Ppu.dmaCountdown (p : Ppu) : Ppu :=
  if p.dmaActive then
    if p.dmaCounter = 0 then { p with dmaActive := false } else { p with dmaCounter := p.dmaCounter - 1 }
  else p

/-- R322: the dot at which VBlank starts. -/
def Ppu.vblankDot (p : Ppu) : Bool := p.scanline == 241 && p.dot == 1

/-- R322: `CPU_NMI` is broadcast on this dot: VBlank starts and PPUCTRL bit 7 is set. -/
def Ppu.raisesNmi (p : Ppu) : Bool := p.vblankDot && p.ctrl.getLsbD 7

/-- R322: "set VBlank; [...] increment frame counter". -/
def Ppu.vblankStart (p : Ppu) : Ppu :=
  if p.vblankDot then { p with status := putBit p.status 7 true, frameCount := p.frameCount + 1 } else p

/-- R323: "clear VBlank, sprite overflow, and sprite zero hit". -/
def Ppu.vblankEnd (p : Ppu) : Ppu :=
  if p.scanline = 261 ∧ p.dot = 1 then
    { p with status := putBit (putBit (putBit p.status 7 false) 6 false) 5 false }
  else p

/-- R326: the address of the nametable byte. -/
def Ppu.tileAddr (p : Ppu) : BitVec 14 := 0x2000 ||| (p.v.setWidth 14 &&& 0x0FFF)

/-- R326: the address of the attribute byte. -/
def Ppu.attrAddr (p : Ppu) : BitVec 14 :=
  let v : BitVec 14 := p.v.setWidth 14
  0x23C0 ||| (v &&& 0x0C00) ||| ((v >>> 4) &&& 0x38) ||| ((v >>> 2) &&& 0x07)

/-- R326: the two attribute bits of the quadrant V points into. -/
def Ppu.attrBits (p : Ppu) (t : Byte) : BitVec 2 :=
  let t := if (coarseY p.v).getLsbD 1 then t >>> 4 else t
  let t := if (coarseX p.v).getLsbD 1 then t >>> 2 else t
  t.extractLsb' 0 2

/-- R326: the address of the low pattern plane of the tile in `ntByte`. -/
def Ppu.patternAddr (p : Ppu) : BitVec 14 :=
  BitVec.ofNat 14 ((if p.ctrl.getLsbD 4 then 0x1000 else 0) + p.ntByte.toNat * 16 + (fineY p.v).toNat)

/-- R326: "Each dot shifts the background registers". -/
def Ppu.shiftBackground (p : Ppu) : Ppu :=
  { p with bgLo := p.bgLo <<< 1, bgHi := p.bgHi <<< 1, atLo := p.atLo <<< 1, atHi := p.atHi <<< 1 }

/-- `w` with its low byte replaced (R326's commit). -/
def setLow (w : BitVec 16) (b : Byte) : BitVec 16 := w.extractLsb' 8 8 ++ b

/-- R326, case 1: commit the previously fetched row and fetch the nametable byte. -/
def Ppu.commitTile (c : Cartridge) (p : Ppu) : Ppu :=
  { p with
    bgLo := setLow p.bgLo p.ptLo
    bgHi := setLow p.bgHi p.ptHi
    atLo := setLow p.atLo (if p.atBits.getLsbD 0 then 0xFF else 0x00)
    atHi := setLow p.atHi (if p.atBits.getLsbD 1 then 0xFF else 0x00)
    ntByte := p.busRead c p.tileAddr }

/-- R326: the background step at dot `d`. -/
def Ppu.backgroundStep (c : Cartridge) (p : Ppu) (d : Nat) : Ppu :=
  let p := p.shiftBackground
  match d % 8 with
  | 1 => p.commitTile c
  | 3 => { p with atBits := p.attrBits (p.busRead c p.attrAddr) }
  | 5 => { p with ptLo := p.busRead c p.patternAddr }
  | 7 => { p with ptHi := p.busRead c (p.patternAddr + 8) }
  | _ => p

/-- R328. -/
def incCoarseX (v : BitVec 15) : BitVec 15 :=
  if coarseX v = 31 then setNametableX (setCoarseX v 0) (!nametableX v) else setCoarseX v (coarseX v + 1)

/-- R329: coarse Y after a row of tiles ends, with the nametable toggle at 29. -/
def incCoarseY (v : BitVec 15) : BitVec 15 :=
  if coarseY v = 29 then setNametableY (setCoarseY v 0) (!nametableY v)
  else if coarseY v = 31 then setCoarseY v 0
  else setCoarseY v (coarseY v + 1)

/-- R329. -/
def incY (v : BitVec 15) : BitVec 15 :=
  if (fineY v).toNat < 7 then setFineY v (fineY v + 1) else incCoarseY (setFineY v 0)

/-- R330: `V.coarse_x` and `V.nametable_x` from T. -/
def copyHorizontal (v t : BitVec 15) : BitVec 15 := setNametableX (setCoarseX v (coarseX t)) (nametableX t)

/-- R330: `V.coarse_y`, `V.fine_y` and `V.nametable_y` from T. -/
def copyVertical (v t : BitVec 15) : BitVec 15 :=
  setNametableY (setFineY (setCoarseY v (coarseY t)) (fineY t)) (nametableY t)

/-! ### Sprites (R335) -/

/-- R335: 16 or 8 lines. -/
def Ppu.spriteHeight (p : Ppu) : Nat := if p.ctrl.getLsbD 5 then 16 else 8

/-- R335: the pattern address of a sprite row. -/
def Ppu.spriteAddr (p : Ppu) (tile : Byte) (prow : Nat) : BitVec 14 :=
  if p.ctrl.getLsbD 5 then
    BitVec.ofNat 14 ((if tile.getLsbD 0 then 0x1000 else 0)
      + ((tile &&& 0xFE).toNat + (if 8 ≤ prow then 1 else 0)) * 16 + prow % 8)
  else
    BitVec.ofNat 14 ((if p.ctrl.getLsbD 3 then 0x1000 else 0) + tile.toNat * 16 + prow)

/-- R335: the row of OAM entry `n` on line `t`, `row = y - t + 8`, in integers. -/
def Ppu.spriteRow (p : Ppu) (n t : Nat) : Int := (p.oam.read (4 * n)).toNat - (t : Int) + 8

/-- R335: the buffer entry of OAM entry `n` at row `row`. -/
def Ppu.spriteEntry (c : Cartridge) (p : Ppu) (n row : Nat) : SpriteEntry :=
  let tile := p.oam.read (4 * n + 1)
  let attr := p.oam.read (4 * n + 2)
  let prow := if attr.getLsbD 7 then row else p.spriteHeight - 1 - row
  let lsb := p.busRead c (p.spriteAddr tile prow)
  let msb := p.busRead c (p.spriteAddr tile prow + 8)
  let flip := attr.getLsbD 6
  { x := p.oam.read (4 * n + 3)
    palette := (attr &&& 3).setWidth 3 + 4
    priority := attr.getLsbD 5
    lsb := if flip then reverseBits lsb else lsb
    msb := if flip then reverseBits msb else msb
    isSpriteZero := n == 0 }

/-- R335: the scan, from entry `n` on with `fuel` entries left; the overflow flag is set when the eighth
sprite is taken, and the scan stops. -/
def Ppu.scanSprites (c : Cartridge) (t : Nat) : Nat → Nat → Ppu → Ppu
  | 0, _, p => p
  | fuel + 1, n, p =>
    let row := p.spriteRow n t
    if 0 ≤ row ∧ row < p.spriteHeight then
      let q := { p with sprites := p.sprites ++ [p.spriteEntry c n row.toNat] }
      if q.sprites.length = 8 then { q with status := putBit q.status 5 true }
      else Ppu.scanSprites c t fuel (n + 1) q
    else Ppu.scanSprites c t fuel (n + 1) p

/-- R335: "evaluate sprites for the *next* scanline" `t`, all 64 OAM entries. -/
def Ppu.evaluateSprites (c : Cartridge) (t : Nat) (p : Ppu) : Ppu :=
  Ppu.scanSprites c t 64 0 { p with sprites := [] }

/-! ### Fetch, scroll and evaluation of one dot -/

/-- R320: V after the increments and copies of dot `d` on a rendering line. -/
def Ppu.scrollStep (p : Ppu) (d : Nat) : BitVec 15 :=
  let v := if (d % 8 = 0 ∧ 8 ≤ d ∧ d ≤ 256) ∨ d = 328 ∨ d = 336 then incCoarseX p.v else p.v
  let v := if d = 256 then incY v else v
  let v := if d = 257 then copyHorizontal v p.t else v
  if p.scanline = 261 ∧ 280 ≤ d ∧ d ≤ 304 then copyVertical v p.t else v

/-- R320: the background fetches, the scroll updates and sprite evaluation, on rendering lines only. -/
def Ppu.renderStep (c : Cartridge) (p : Ppu) : Ppu :=
  if p.onRenderLine then
    let d := p.dot
    let p := if (1 ≤ d ∧ d ≤ 256) ∨ (321 ≤ d ∧ d ≤ 336) then p.backgroundStep c d else p
    let p := { p with v := p.scrollStep d }
    if d = 257 then p.evaluateSprites c ((p.scanline + 1) % 262) else p
  else p

/-! ### The pixel (R340) -/

/-- R340: the background pixel and its palette; a disabled layer contributes 0. -/
def Ppu.backgroundPixel (p : Ppu) : Nat × Nat :=
  let bit := 15 - p.fineX.toNat
  if p.mask.getLsbD 3 then
    (2 * (p.bgHi.getLsbD bit).toNat + (p.bgLo.getLsbD bit).toNat,
     2 * (p.atHi.getLsbD bit).toNat + (p.atLo.getLsbD bit).toNat)
  else (0, 0)

/-- R340: the two-bit pixel of a sprite entry at column `x`; 0 where the entry does not reach. -/
def SpriteEntry.pixelAt (e : SpriteEntry) (x : Nat) : Nat :=
  if e.x.toNat ≤ x ∧ x ≤ e.x.toNat + 7 then
    let bit := 7 - (x - e.x.toNat)
    2 * (e.msb.getLsbD bit).toNat + (e.lsb.getLsbD bit).toNat
  else 0

/-- R340: the first entry with a non-transparent pixel at column `x`, and that pixel. -/
def firstSprite (x : Nat) : List SpriteEntry → Option (SpriteEntry × Nat)
  | [] => none
  | e :: rest => if e.pixelAt x = 0 then firstSprite x rest else some (e, e.pixelAt x)

/-- R340: the sprite that shows at column `x`: sprites are enabled, and the left column is not masked. -/
def Ppu.spritePixel (p : Ppu) (x : Nat) : Option (SpriteEntry × Nat) :=
  if p.mask.getLsbD 4 && (decide (8 ≤ x + 1) || p.mask.getLsbD 2) then firstSprite x p.sprites else none

/-- R340: the background pixel after the left-column mask ("`dot < 8`", that is `x + 1 < 8`). -/
def Ppu.shownBackground (p : Ppu) (x : Nat) : Nat :=
  if x + 1 < 8 ∧ p.mask.getLsbD 1 = false then 0 else p.backgroundPixel.1

/-- R340, R341: the palette address of the pixel at column `x`. -/
def Ppu.pixelAddr (p : Ppu) (x : Nat) : Nat :=
  let bg := p.shownBackground x
  let bgAddr := 0x3F00 + 4 * p.backgroundPixel.2 + bg
  match p.spritePixel x with
  | none => if bg = 0 then 0x3F00 else bgAddr
  | some (e, spr) =>
    if bg = 0 ∨ e.priority = false then 0x3F00 + 4 * e.palette.toNat + spr else bgAddr

/-- R340: "If both BG and SPR are non-zero and the winning sprite is OAM index 0". -/
def Ppu.spriteZeroHit (p : Ppu) (x : Nat) : Bool :=
  match p.spritePixel x with
  | none => false
  | some (e, _) => e.isSpriteZero && p.shownBackground x != 0

/-- R340: `EmitPixel(x, y)`. -/
def Ppu.emitPixel (p : Ppu) (x y : Nat) : Ppu :=
  let rgb := rgbLut ((p.paletteRead (p.pixelAddr x)).setWidth 6)
  { p with
    status := if p.spriteZeroHit x then putBit p.status 6 true else p.status
    framebuffer := Frame.put p.framebuffer (256 * y + x) rgb }

/-- R320: a pixel on every visible dot, whether or not rendering is enabled. -/
def Ppu.pixelStep (p : Ppu) : Ppu :=
  if p.scanline ≤ 239 ∧ 1 ≤ p.dot ∧ p.dot ≤ 256 then p.emitPixel (p.dot - 1) p.scanline else p

/-- R321: the next dot, "skip dot 339 [of the pre-render line on odd frames] (advance twice)". -/
def Ppu.advance (p : Ppu) : Ppu :=
  let d := p.dot + 1
  let d := if p.scanline = 261 ∧ d = 339 ∧ p.oddFrame = true then 340 else d
  if d = 341 then
    if p.scanline + 1 = 262 then { p with dot := 0, scanline := 0, oddFrame := !p.oddFrame }
    else { p with dot := 0, scanline := p.scanline + 1 }
  else { p with dot := d }

/-- R320: one dot, in the rule's order. The broadcasts of R351 and R322 are `resumesCpu` and `raisesNmi`. -/
def Ppu.tick (c : Cartridge) (p : Ppu) : Ppu :=
  let p := p.dmaCountdown
  let p := p.vblankStart.vblankEnd
  let p := p.renderStep c
  p.pixelStep.advance

/-- R310: "Console `reset()` restores the same values except that it leaves the memories, the framebuffer
and `frame_count` alone". -/
def Ppu.reset (p : Ppu) : Ppu :=
  { nt := p.nt, pal := p.pal, oam := p.oam, framebuffer := p.framebuffer, frameCount := p.frameCount }

end Sys2Proof.Machine
end

