-- ==== Sys2Proof/Machine/Ops.lean ====
section
/-! DEFINITION. The bus (`61_bus_fabric.md`): its signals, its routing, `read`, `write` and `peek`; the
stack (`10_state.md` R15, R16); taking an exception and returning from one (`60_exceptions.md` R213, R216,
`45_control_flow.md` R173, R174); and the end of an instruction, which sets `budget` (R72). -/

namespace Sys2Proof.Machine

/-! ## Signals (R255, R217) -/

/-- R255: "Signal identifiers are an enumerated, closed set". `apuFrc m i` is `APU_FRC(flag)`: the flags
`none`, `i`, `m`, `mi` are the four values of the two Bools. -/
inductive Signal where
  | cpuNmi
  | cpuIrq
  | cpuHlt
  | cpuRsm
  | ppuDma
  | apuFrc (m i : Bool)
  deriving DecidableEq, Repr

/-- R217: what the CPU does with a signal: "device handlers only raise latches". -/
def State.cpuOnSignal (st : State) : Signal → State
  | .cpuNmi => st.setNmiPending true
  | .cpuIrq => st.setIrqPending true
  | .cpuHlt => st.setHalted true
  | .cpuRsm => st.setHalted false
  | .ppuDma => st
  | .apuFrc _ _ => st

/-! ## Routing (R46, R257, R262, R271) -/

/-- The device that owns an address, and where in it the access lands. -/
inductive Target where
  /-- R260, R262: CPU RAM, at an offset below 2048. -/
  | ram (offset : Nat)
  /-- R300: PPU register 0 to 7. -/
  | ppu (r : Nat)
  /-- R46: APU register `0x4000 + r`, r from 0 to 0x15. -/
  | apu (r : Nat)
  /-- R280: a controller port. -/
  | pad (player : Player)
  /-- R271: PRG-RAM, at an offset. -/
  | prgRam (offset : Nat)
  /-- R271: PRG-ROM, at an offset. -/
  | prgRom (offset : Nat)
  /-- R49: no device, or a cartridge address the mapper maps to `None`. -/
  | nothing
  deriving DecidableEq, Repr

/-- R270, R271: mapper 0, CPU side, for `n` from `0x4020` up. -/
def Cartridge.route (c : Cartridge) (n : Nat) : Target :=
  if c.inserted then
    if n < 0x6000 then .nothing
    else if n < 0x8000 then
      match c.prgRamLog with
      | some k => .prgRam ((n - 0x6000) % 2 ^ k)
      | none => .nothing
    else .prgRom ((n - 0x8000) % c.prgSize.bytes)
  else .nothing

/-- R46: which device a CPU bus address selects; "routing is a pure function of the address" (R251). -/
def route (c : Cartridge) (addr : Addr) : Target :=
  let n := addr.toNat
  if n < 0x2000 then .ram (n % 0x800)
  else if n < 0x4000 then .ppu (n % 8)
  else if n < 0x4016 then .apu (n - 0x4000)
  else if n = 0x4016 then .pad .one
  else if n = 0x4017 then .pad .two
  else if n < 0x4020 then .nothing
  else c.route n

/-! ## Reads (R252, R254) -/

/-- R282: a controller port read: bit 7 of the shift byte, which shifts left. -/
def Pads.read (q : Pads) : Player → Byte × Pads
  | .one => (q.shift1 >>> 7, { q with shift1 := q.shift1 <<< 1 })
  | .two => (q.shift2 >>> 7, { q with shift2 := q.shift2 <<< 1 })

/-- R252: `MemRead(addr, 1)`, with side effects. -/
def busRead (addr : Addr) (st : State) : Byte × State :=
  match route st.launch.cart addr with
  | .ram k => (st.ram.read k, st)
  | .ppu r => ((st.ppu.readReg st.launch.cart r).1, st.setPpu (st.ppu.readReg st.launch.cart r).2)
  | .apu r => (st.apu.readReg r, st)
  | .pad q => ((st.pads.read q).1, st.setPads (st.pads.read q).2)
  | .prgRam k => (st.prgRam.read k, st)
  | .prgRom k => (st.launch.cart.prgRom.read k, st)
  | .nothing => (0, st)

/-- R254: `MemPeek(addr)`: "The value returned is the one `read` would return at that moment", and no state
changes. -/
def busPeek (addr : Addr) (st : State) : Byte := (busRead addr st).1

/-- R42: `Read16(addr)`, low byte first. -/
def read16 (addr : Addr) (st : State) : Addr × State :=
  let lo := busRead addr st
  let hi := busRead (addr + 1) lo.2
  (word hi.1 lo.1, hi.2)

/-! ## OAM DMA (R350) -/

/-- R350: the 256 reads, in ascending order, into OAM: `fuel` bytes from index `i` on. -/
def dmaCopy (page : Byte) : Nat → Nat → State → State
  | 0, _, st => st
  | fuel + 1, i, st =>
    let r := busRead (word page (BitVec.ofNat 8 i)) st
    dmaCopy page fuel (i + 1) (r.2.setPpu { r.2.ppu with oam := r.2.ppu.oam.write i r.1 })

/-- R350: the PPU's handler of `PPU_DMA`. -/
def ppuOnDma (st : State) : State :=
  let st := st.cpuOnSignal .cpuHlt
  let st := dmaCopy st.apu.dmaPage 256 0 st
  st.setPpu { st.ppu with dmaActive := true, dmaCounter := Config.dmaDots }

/-- R255: `broadcast(signal_id)`; each signal has one acting device. -/
def broadcast (sig : Signal) (st : State) : State :=
  match sig with
  | .ppuDma => ppuOnDma st
  | .apuFrc m i => st.setApu (st.apu.setFrameMode m i)
  | .cpuNmi => st.cpuOnSignal .cpuNmi
  | .cpuIrq => st.cpuOnSignal .cpuIrq
  | .cpuHlt => st.cpuOnSignal .cpuHlt
  | .cpuRsm => st.cpuOnSignal .cpuRsm

/-! ## Writes (R253) -/

/-- R281: "A write to $4016 latches parallel->shift for both players". -/
def Pads.latch (q : Pads) : Pads := { q with shift1 := q.parallel1, shift2 := q.parallel2 }

/-- R372 to R384, R383: a write of APU register `0x4000 + r`. -/
def apuWrite (r : Nat) (b : Byte) (st : State) : State :=
  let st := st.setApu (st.apu.writeReg st.launch r b)
  if r = 0x14 then broadcast .ppuDma st else st

/-- R253: `MemWrite(addr, 1, b)`. Writes to ROM and to nothing are dropped (R49). -/
def busWrite (addr : Addr) (b : Byte) (st : State) : State :=
  match route st.launch.cart addr with
  | .ram k => st.setRam (st.ram.write k b)
  | .ppu r => st.setPpu (st.ppu.writeReg st.launch.cart r b)
  | .apu r => apuWrite r b st
  | .pad .one => st.setPads st.pads.latch
  | .pad .two => broadcast (.apuFrc (b.getLsbD 7) (b.getLsbD 6)) st
  | .prgRam k => st.setPrgRam (st.prgRam.write k b)
  | .prgRom _ => st
  | .nothing => st

/-! ## Stack (R11, R15, R16) -/

/-- R11: "The stack address is always `0x0100 | S`". -/
def stackAddr (s : Byte) : Addr := 0x0100 ||| zext16 s

/-- R15: `Push(v)`. -/
def push (v : Byte) (st : State) : State :=
  let st := busWrite (stackAddr st.s) v st
  st.setS (st.s - 1)

/-- R16: `Pull()`. -/
def pull (st : State) : Byte × State :=
  let st := st.setS (st.s + 1)
  busRead (stackAddr st.s) st

/-- R41: a 16-bit value is pushed high byte first. -/
def push16 (w : Addr) (st : State) : State := push (lo8 w) (push (hi8 w) st)

/-- R172, R174: low byte first. -/
def pull16 (st : State) : Addr × State :=
  let lo := pull st
  let hi := pull lo.2
  (word hi.1 lo.1, hi.2)

/-! ## Exceptions -/

/-- R213 (and R173 from its second push on): push PC, write B and set I in P, push P with U = 1, load PC
from the vector. `b` is false for NMI and IRQ and true for BRK. -/
def trapEntry (b : Bool) (vector : Addr) (st : State) : State :=
  let st := push16 st.pc st
  let st := st.setP (entryStatus st.p b)
  let st := push (st.p ||| 0x20) st
  let r := read16 vector st
  r.2.setPc r.1

/-- R174: pull P (B preserved, U = 1), then PC low, then PC high. -/
def returnFromTrap (st : State) : State :=
  let r := pull st
  let st := r.2.setP (pulledStatus r.2.p r.1)
  let w := pull16 st
  w.2.setPc w.1

/-! ## The end of an instruction -/

/-- R72, R90: `t` as the next state of an instruction with opcode `op` that began in `st`: `budget <- base + extra`,
where `extra` is what the page-cross and branch rules add. -/
def finish (st : State) (op : Byte) (extra : Nat) (t : State) : Host.Outcome State Fault Refusal :=
  .next (t.setBudget (st.launch.cycles op + extra))

end Sys2Proof.Machine
end

