-- ==== Sys2Proof/Machine/Operands.lean ====
section
/-! DEFINITION. The addressing modes as operations (`30_encoding.md` R73 to R87) and the four shapes of
instruction over them: one that reads an operand, one that stores, one that reads, modifies and writes, and
a branch. On entry PC is already past the operand bytes (R12), which the instruction carries. -/

namespace Sys2Proof.Machine

/-- What resolving a mode leaves: `ea`, whether the index addition changed the page (R82), and the state
after the pointer reads. -/
structure Resolved where
  ea : Addr
  crossed : Bool
  state : State
  deriving DecidableEq, Repr

/-- R82: `ea = base + index`, with the page-cross test on the high byte. -/
def indexed (base : Addr) (index : Byte) (st : State) : Resolved :=
  let ea := base + zext16 index
  { ea := ea, crossed := hi8 ea != hi8 base, state := st }

/-- R44: a 16-bit pointer at zero-page address `t`, the high byte at `(t + 1) mod 256`. -/
def readZeroPage16 (t : Byte) (st : State) : Addr × State :=
  let lo := busRead (zext16 t) st
  let hi := busRead (zext16 (t + 1)) lo.2
  (word hi.1 lo.1, hi.2)

/-- R77 to R79, R81 to R83, R85, R86: the effective address of a memory mode. -/
def resolve (m : MemOperand) (st : State) : Resolved :=
  match m with
  | .zp0 t => { ea := zext16 t, crossed := false, state := st }
  | .zpx t => { ea := zext16 (t + st.x), crossed := false, state := st }
  | .zpy t => { ea := zext16 (t + st.y), crossed := false, state := st }
  | .abs w => { ea := w, crossed := false, state := st }
  | .abx w => indexed w st.x st
  | .aby w => indexed w st.y st
  | .izx t =>
    let r := readZeroPage16 (t + st.x) st
    { ea := r.1, crossed := false, state := r.2 }
  | .izy t =>
    let r := readZeroPage16 t st
    indexed r.1 r.2.y r.2

/-- What `Fetch()` leaves: the operand, the page-cross mark of its mode, and the state after the read. -/
structure Fetched where
  value : Byte
  crossed : Bool
  state : State
  deriving DecidableEq, Repr

/-- R73: `Fetch()`. The immediate byte was read with the instruction; any other operand is read at `ea`. -/
def fetchOperand (src : Source) (st : State) : Fetched :=
  match src with
  | .imm n => { value := n, crossed := false, state := st }
  | .mem m =>
    let r := resolve m st
    let b := busRead r.ea r.state
    { value := b.1, crossed := r.crossed, state := b.2 }

/-- R84: the target of `JMP (ptr)`: the high byte comes from `hi :: ((lo + 1) mod 256)`. -/
def readIndirect (ptr : Addr) (st : State) : Addr × State :=
  let lo := busRead ptr st
  let hi := busRead (word (hi8 ptr) (lo8 ptr + 1)) lo.2
  (word hi.1 lo.1, hi.2)

/-- R80: `ea = (PC + sext_16(t)) mod 65536`, PC the address of the next instruction. -/
def branchTarget (pc : Addr) (t : Byte) : Addr := pc + sext16 t

/-! ## Instruction shapes -/

/-- R87: a read-type instruction: `m <- Fetch()`, then `effect m`; a page cross costs one cycle. -/
def readInstr (op : Byte) (src : Source) (effect : Byte → State → State) (st : State) :
    Host.Outcome State Fault Refusal :=
  let r := fetchOperand src st
  finish st op (if r.crossed then 1 else 0) (effect r.value r.state)

/-- R100, R104: a store: one write of `v` at `ea`, no read of it, no surcharge. -/
def storeInstr (op : Byte) (m : MemOperand) (v : Byte) (st : State) : Host.Outcome State Fault Refusal :=
  let r := resolve m st
  finish st op 0 (busWrite r.ea v r.state)

/-- R53, R160: read `ea`, write the result back, then `flags old`; no surcharge. -/
def modifyInstr (op : Byte) (m : MemOperand) (result : Byte → Byte) (flags : Byte → State → State)
    (st : State) : Host.Outcome State Fault Refusal :=
  let r := resolve m st
  let b := busRead r.ea r.state
  finish st op 0 (flags b.1 (busWrite r.ea (result b.1) b.2))

/-- R175: a conditional branch with offset byte `t`. -/
def branchInstr (op : Byte) (taken : Bool) (t : Byte) (st : State) : Host.Outcome State Fault Refusal :=
  let target := branchTarget st.pc t
  if taken then finish st op (if hi8 target = hi8 st.pc then 1 else 2) (st.setPc target)
  else finish st op 0 st

/-- A one-byte instruction with effect `effect` and no surcharge. -/
def impliedInstr (op : Byte) (effect : State → State) (st : State) : Host.Outcome State Fault Refusal :=
  finish st op 0 (effect st)

end Sys2Proof.Machine
end

