-- ==== Sys2Proof/Machine/Arithmetic.lean ====
section
/-! DEFINITION. Arithmetic instructions (`43_arithmetic.md`). -/

namespace Sys2Proof.Machine

/-- R140: A, C, V, Z and N from `A + m + C`, binary whatever D holds. -/
def execAdc (f : AluForm) (st : State) : Host.Outcome State Fault Refusal :=
  readInstr (Instr.adc f).opcode f.source (fun m st => st.addToA m) st

/-- R141: "SBC inverts the operand then reuses ADC". -/
def execSbc (f : AluForm) (st : State) : Host.Outcome State Fault Refusal :=
  readInstr (Instr.sbc f).opcode f.source (fun m st => st.addToA (m ^^^ 0xFF)) st

/-- R143: rule R142 with `reg = A`. -/
def execCmp (f : AluForm) (st : State) : Host.Outcome State Fault Refusal :=
  readInstr (Instr.cmp f).opcode f.source (fun m st => st.compareWith st.a m) st

/-- R144: rule R142 with `reg = X`. -/
def execCpx (f : CpxForm) (st : State) : Host.Outcome State Fault Refusal :=
  readInstr (Instr.cpx f).opcode f.source (fun m st => st.compareWith st.x m) st

/-- R145: rule R142 with `reg = Y`. -/
def execCpy (f : CpxForm) (st : State) : Host.Outcome State Fault Refusal :=
  readInstr (Instr.cpy f).opcode f.source (fun m st => st.compareWith st.y m) st

/-- R146: `m <- Fetch(); r <- (m + 1) mod 256; MemWrite(ea, 1, r); SetZN(r)`. -/
def execInc (f : IncForm) (st : State) : Host.Outcome State Fault Refusal :=
  modifyInstr (Instr.inc f).opcode f.operand (fun m => m + 1) (fun m st => st.setZN (m + 1)) st

/-- R147: `X <- (X + 1) mod 256; SetZN(X)`. -/
def execInx (st : State) : Host.Outcome State Fault Refusal :=
  impliedInstr Instr.inx.opcode (fun st => (st.setX (st.x + 1)).setZN (st.x + 1)) st

/-- R148: `Y <- (Y + 1) mod 256; SetZN(Y)`. -/
def execIny (st : State) : Host.Outcome State Fault Refusal :=
  impliedInstr Instr.iny.opcode (fun st => (st.setY (st.y + 1)).setZN (st.y + 1)) st

/-- R149: `m <- Fetch(); r <- (m - 1) mod 256; MemWrite(ea, 1, r); SetZN(r)`. -/
def execDec (f : IncForm) (st : State) : Host.Outcome State Fault Refusal :=
  modifyInstr (Instr.dec f).opcode f.operand (fun m => m - 1) (fun m st => st.setZN (m - 1)) st

/-- R150: `X <- (X - 1) mod 256; SetZN(X)`. -/
def execDex (st : State) : Host.Outcome State Fault Refusal :=
  impliedInstr Instr.dex.opcode (fun st => (st.setX (st.x - 1)).setZN (st.x - 1)) st

/-- R151: `Y <- (Y - 1) mod 256; SetZN(Y)`. -/
def execDey (st : State) : Host.Outcome State Fault Refusal :=
  impliedInstr Instr.dey.opcode (fun st => (st.setY (st.y - 1)).setZN (st.y - 1)) st

end Sys2Proof.Machine
end

