-- ==== Sys2Proof/Machine/ControlFlow.lean ====
section
/-! DEFINITION. Control flow (`45_control_flow.md`). On entry PC is the address of the opcode plus the
instruction's length (R12). -/

namespace Sys2Proof.Machine

/-- R170: `PC <- ea`; in mode IND the target is read through the pointer (R84). -/
def execJmp (f : JmpForm) (st : State) : Host.Outcome State Fault Refusal :=
  match f with
  | .abs w => finish st (Instr.jmp f).opcode 0 (st.setPc w)
  | .ind w => finish st (Instr.jmp f).opcode 0 ((readIndirect w st).2.setPc (readIndirect w st).1)

/-- R171: push `PC - 1`, high byte first, and jump. -/
def execJsr (w : Addr) (st : State) : Host.Outcome State Fault Refusal :=
  finish st (Instr.jsr w).opcode 0 ((push16 (st.pc - 1) st).setPc w)

/-- R172: pull PC low then high, and add 1. -/
def execRts (st : State) : Host.Outcome State Fault Refusal :=
  impliedInstr Instr.rts.opcode (fun st => (pull16 st).2.setPc ((pull16 st).1 + 1)) st

/-- R173: skip the padding byte, then enter the trap with B set, through the IRQ vector. -/
def execBrk (st : State) : Host.Outcome State Fault Refusal :=
  impliedInstr Instr.brk.opcode (fun st => trapEntry true Config.irqVector (st.setPc (st.pc + 1))) st

/-- R174: pull P, then PC low, then PC high. -/
def execRti (st : State) : Host.Outcome State Fault Refusal :=
  impliedInstr Instr.rti.opcode returnFromTrap st

/-- R176: taken if `P.C == 0`. -/
def execBcc (t : Byte) (st : State) : Host.Outcome State Fault Refusal :=
  branchInstr (Instr.bcc t).opcode (!st.flag .c) t st

/-- R177: taken if `P.C == 1`. -/
def execBcs (t : Byte) (st : State) : Host.Outcome State Fault Refusal :=
  branchInstr (Instr.bcs t).opcode (st.flag .c) t st

/-- R178: taken if `P.Z == 1`. -/
def execBeq (t : Byte) (st : State) : Host.Outcome State Fault Refusal :=
  branchInstr (Instr.beq t).opcode (st.flag .z) t st

/-- R179: taken if `P.N == 1`. -/
def execBmi (t : Byte) (st : State) : Host.Outcome State Fault Refusal :=
  branchInstr (Instr.bmi t).opcode (st.flag .n) t st

/-- R180: taken if `P.Z == 0`. -/
def execBne (t : Byte) (st : State) : Host.Outcome State Fault Refusal :=
  branchInstr (Instr.bne t).opcode (!st.flag .z) t st

/-- R181: taken if `P.N == 0`. -/
def execBpl (t : Byte) (st : State) : Host.Outcome State Fault Refusal :=
  branchInstr (Instr.bpl t).opcode (!st.flag .n) t st

/-- R182: taken if `P.V == 0`. -/
def execBvc (t : Byte) (st : State) : Host.Outcome State Fault Refusal :=
  branchInstr (Instr.bvc t).opcode (!st.flag .v) t st

/-- R183: taken if `P.V == 1`. -/
def execBvs (t : Byte) (st : State) : Host.Outcome State Fault Refusal :=
  branchInstr (Instr.bvs t).opcode (st.flag .v) t st

end Sys2Proof.Machine
end

