-- ==== Sys2Proof/Machine/FlagOps.lean ====
section
/-! DEFINITION. Flag instructions, NOP and the XXX handler (`46_flags_nop_xxx.md`). -/

namespace Sys2Proof.Machine

/-- R190: `P.C <- 0`. -/
def execClc (st : State) : Host.Outcome State Fault Refusal :=
  impliedInstr Instr.clc.opcode (fun st => st.setFlag .c false) st

/-- R191: `P.D <- 0`. -/
def execCld (st : State) : Host.Outcome State Fault Refusal :=
  impliedInstr Instr.cld.opcode (fun st => st.setFlag .d false) st

/-- R192: `P.I <- 0`. -/
def execCli (st : State) : Host.Outcome State Fault Refusal :=
  impliedInstr Instr.cli.opcode (fun st => st.setFlag .i false) st

/-- R193: `P.V <- 0`. -/
def execClv (st : State) : Host.Outcome State Fault Refusal :=
  impliedInstr Instr.clv.opcode (fun st => st.setFlag .v false) st

/-- R194: `P.C <- 1`. -/
def execSec (st : State) : Host.Outcome State Fault Refusal :=
  impliedInstr Instr.sec.opcode (fun st => st.setFlag .c true) st

/-- R195: `P.D <- 1`. -/
def execSed (st : State) : Host.Outcome State Fault Refusal :=
  impliedInstr Instr.sed.opcode (fun st => st.setFlag .d true) st

/-- R196: `P.I <- 1`. -/
def execSei (st : State) : Host.Outcome State Fault Refusal :=
  impliedInstr Instr.sei.opcode (fun st => st.setFlag .i true) st

/-- R198: nothing; "PC has already advanced by 1". -/
def execNop (st : State) : Host.Outcome State Fault Refusal :=
  impliedInstr Instr.nop.opcode (fun st => st) st

/-- R199: the mode of the slot is resolved (R72): IND, IZX and IZY read their pointer, with the side effects of
those reads; then nothing: no `Fetch()`, no write, no register or flag change, no surcharge. A REL slot's target is
never taken, and ABX, ABY and IZY never pay for a page cross (R87). -/
def execXxx (op : Byte) (f : XxxForm) (st : State) : Host.Outcome State Fault Refusal :=
  match f with
  | .imp => finish st op 0 st
  | .acc => finish st op 0 st
  | .imm _ => finish st op 0 st
  | .rel _ => finish st op 0 st
  | .ind w => finish st op 0 (readIndirect w st).2
  | .mem m => finish st op 0 (resolve m st).state

end Sys2Proof.Machine
end

