-- ==== Sys2Proof/Machine/Logic.lean ====
section
/-! DEFINITION. Logic instructions (`42_logic.md`). -/

namespace Sys2Proof.Machine

/-- R131: `m <- Fetch(); A <- A & m; SetZN(A)`. -/
def execAnd (f : AluForm) (st : State) : Host.Outcome State Fault Refusal :=
  readInstr (Instr.and f).opcode f.source (fun m st => (st.setA (st.a &&& m)).setZN (st.a &&& m)) st

/-- R132: `m <- Fetch(); A <- A ^ m; SetZN(A)`. -/
def execEor (f : AluForm) (st : State) : Host.Outcome State Fault Refusal :=
  readInstr (Instr.eor f).opcode f.source (fun m st => (st.setA (st.a ^^^ m)).setZN (st.a ^^^ m)) st

/-- R133: `m <- Fetch(); A <- A | m; SetZN(A)`. -/
def execOra (f : AluForm) (st : State) : Host.Outcome State Fault Refusal :=
  readInstr (Instr.ora f).opcode f.source (fun m st => (st.setA (st.a ||| m)).setZN (st.a ||| m)) st

/-- R134: Z from `A & m`, N and V from bits 7 and 6 of `m`; A is not changed. -/
def execBit (f : BitForm) (st : State) : Host.Outcome State Fault Refusal :=
  readInstr (Instr.bit f).opcode f.source (fun m st => st.testBits m) st

end Sys2Proof.Machine
end

