-- ==== Sys2Proof/Machine/Shifts.lean ====
section
/-! DEFINITION. Shift and rotate instructions (`44_shifts.md`). -/

namespace Sys2Proof.Machine

/-- R161, R163: `(m << 1) mod 256` with `c` at bit 0. -/
def shiftLeft (m : Byte) (c : Bool) : Byte := (m <<< 1) ||| (BitVec.ofBool c).setWidth 8

/-- R162, R164: `m >> 1` with `c` at bit 7. -/
def shiftRight (m : Byte) (c : Bool) : Byte := (m >>> 1) ||| ((BitVec.ofBool c).setWidth 8 <<< 7)

/-- R160: the flags of a shift: C takes the bit shifted out, Z and N come from the result. -/
def State.setShiftFlags (st : State) (out : Bool) (r : Byte) : State := (st.setFlag .c out).setZN r

/-- R160: a shift with result function `result` and evicted bit `out`, on A in mode ACC and on the byte at
`ea` otherwise. -/
def shiftInstr (op : Byte) (operand : Option MemOperand) (result : Byte → Byte) (out : Byte → Bool)
    (st : State) : Host.Outcome State Fault Refusal :=
  match operand with
  | none => impliedInstr op (fun st => (st.setA (result st.a)).setShiftFlags (out st.a) (result st.a)) st
  | some m => modifyInstr op m result (fun b st => st.setShiftFlags (out b) (result b)) st

/-- R161: `P.C <- m[7]; r <- (m << 1) mod 256`. -/
def execAsl (f : ShiftForm) (st : State) : Host.Outcome State Fault Refusal :=
  shiftInstr (Instr.asl f).opcode f.operand (fun m => shiftLeft m false) (fun m => m.getLsbD 7) st

/-- R162: `P.C <- m[0]; r <- m >> 1`. -/
def execLsr (f : ShiftForm) (st : State) : Host.Outcome State Fault Refusal :=
  shiftInstr (Instr.lsr f).opcode f.operand (fun m => shiftRight m false) (fun m => m.getLsbD 0) st

/-- R163: "rotates insert the prior C on the ingress side": bit 0. -/
def execRol (f : ShiftForm) (st : State) : Host.Outcome State Fault Refusal :=
  shiftInstr (Instr.rol f).opcode f.operand (fun m => shiftLeft m (st.flag .c)) (fun m => m.getLsbD 7) st

/-- R164: the prior C enters at bit 7. -/
def execRor (f : ShiftForm) (st : State) : Host.Outcome State Fault Refusal :=
  shiftInstr (Instr.ror f).opcode f.operand (fun m => shiftRight m (st.flag .c)) (fun m => m.getLsbD 0) st

end Sys2Proof.Machine
end

