-- ==== Sys2Proof/Machine/Stack.lean ====
section
/-! DEFINITION. Stack instructions (`41_stack.md`). -/

namespace Sys2Proof.Machine

/-- R120: `Push(A)`. -/
def execPha (st : State) : Host.Outcome State Fault Refusal :=
  impliedInstr Instr.pha.opcode (fun st => push st.a st) st

/-- R121: `Push(P | 0x30)`; P itself is not changed. -/
def execPhp (st : State) : Host.Outcome State Fault Refusal :=
  impliedInstr Instr.php.opcode (fun st => push (pushedByPhp st.p) st) st

/-- R122: `A <- Pull(); SetZN(A)`. -/
def execPla (st : State) : Host.Outcome State Fault Refusal :=
  impliedInstr Instr.pla.opcode (fun st => ((pull st).2.setA (pull st).1).setZN (pull st).1) st

/-- R123: `m <- Pull(); P <- (m & 0xCF) | (P & 0x10) | 0x20`. -/
def execPlp (st : State) : Host.Outcome State Fault Refusal :=
  impliedInstr Instr.plp.opcode (fun st => (pull st).2.setP (pulledStatus st.p (pull st).1)) st

end Sys2Proof.Machine
end

