-- ==== Sys2Proof/Machine/Transfers.lean ====
section
/-! DEFINITION. Loads, stores and register moves (`40_transfers.md`). -/

namespace Sys2Proof.Machine

/-- R101: `m <- Fetch(); A <- m; SetZN(A)`. -/
def execLda (f : AluForm) (st : State) : Host.Outcome State Fault Refusal :=
  readInstr (Instr.lda f).opcode f.source (fun m st => (st.setA m).setZN m) st

/-- R102: `m <- Fetch(); X <- m; SetZN(X)`. -/
def execLdx (f : LdxForm) (st : State) : Host.Outcome State Fault Refusal :=
  readInstr (Instr.ldx f).opcode f.source (fun m st => (st.setX m).setZN m) st

/-- R103: `m <- Fetch(); Y <- m; SetZN(Y)`. -/
def execLdy (f : LdyForm) (st : State) : Host.Outcome State Fault Refusal :=
  readInstr (Instr.ldy f).opcode f.source (fun m st => (st.setY m).setZN m) st

/-- R104: `MemWrite(ea, 1, A)`. -/
def execSta (f : StaForm) (st : State) : Host.Outcome State Fault Refusal :=
  storeInstr (Instr.sta f).opcode f.operand st.a st

/-- R105: `MemWrite(ea, 1, X)`. -/
def execStx (f : StxForm) (st : State) : Host.Outcome State Fault Refusal :=
  storeInstr (Instr.stx f).opcode f.operand st.x st

/-- R106: `MemWrite(ea, 1, Y)`. -/
def execSty (f : StyForm) (st : State) : Host.Outcome State Fault Refusal :=
  storeInstr (Instr.sty f).opcode f.operand st.y st

/-- R107: `X <- A; SetZN(X)`. -/
def execTax (st : State) : Host.Outcome State Fault Refusal :=
  impliedInstr Instr.tax.opcode (fun st => (st.setX st.a).setZN st.a) st

/-- R108: `Y <- A; SetZN(Y)`. -/
def execTay (st : State) : Host.Outcome State Fault Refusal :=
  impliedInstr Instr.tay.opcode (fun st => (st.setY st.a).setZN st.a) st

/-- R109: `A <- X; SetZN(A)`. -/
def execTxa (st : State) : Host.Outcome State Fault Refusal :=
  impliedInstr Instr.txa.opcode (fun st => (st.setA st.x).setZN st.x) st

/-- R110: `A <- Y; SetZN(A)`. -/
def execTya (st : State) : Host.Outcome State Fault Refusal :=
  impliedInstr Instr.tya.opcode (fun st => (st.setA st.y).setZN st.y) st

/-- R111: `X <- S; SetZN(X)`. -/
def execTsx (st : State) : Host.Outcome State Fault Refusal :=
  impliedInstr Instr.tsx.opcode (fun st => (st.setX st.s).setZN st.s) st

/-- R112: `S <- X`; no flag is written. -/
def execTxs (st : State) : Host.Outcome State Fault Refusal :=
  impliedInstr Instr.txs.opcode (fun st => st.setS st.x) st

end Sys2Proof.Machine
end

