-- ==== Sys2Proof/Machine/HostCalls.lean ====
section
/-! DEFINITION. What the outside world does to the machine between two ticks (`70_reset_and_hazards.md`
R420, R421, R423, R434; `61_bus_fabric.md` R280; `63_apu.md` R407), and what it observes. -/

namespace Sys2Proof.Machine

/-! ## Reset (R420 to R424) -/

/-- R421: the PC after reset: the argument of `reset(pc)`, or the vector, "low byte first". -/
def resetPc (pc : Option Addr) (st : State) : Addr × State :=
  match pc with
  | some w => (w, st)
  | none => read16 Config.resetVector st

/-- R421, R423: `reset()` (`none`) and `reset(pc)`. The CPU's registers and latches, the PPU (R310), the APU
(R410) and the tick counter; R424: every memory, the framebuffer, `frame_count`, the controller bytes and
the launch parameters stay. `didNmi` and `didIrq` are unspecified by R32 (log entry 3). -/
def consoleReset (pc : Option Addr) (st : State) : State :=
  let r := resetPc pc st
  { r.2 with
    a := 0x00, x := 0x00, y := 0x00, s := 0xFD, p := 0x24, pc := r.1
    nmiPending := false, irqPending := false, halted := false
    budget := st.launch.resetBudget, cycleCount := 0
    didNmi := false, didIrq := false, tickCount := 0
    ppu := st.ppu.reset, apu := {} }

/-! ## Input and audio -/

/-- R280: "A = bit 7, B = bit 6, Select = bit 5, Start = bit 4, Up = bit 3, Down = bit 2, Left = bit 1, Right
= bit 0". -/
def Button.bit : Button → Nat
  | .a => 7
  | .b => 6
  | .select => 5
  | .start => 4
  | .up => 3
  | .down => 2
  | .left => 1
  | .right => 0

/-- R280: the host call `input` sets or clears the button's bit in the player's parallel byte. -/
def Pads.press (q : Pads) (player : Player) (button : Button) (pressed : Bool) : Pads :=
  match player with
  | .one => { q with parallel1 := putBit q.parallel1 button.bit pressed }
  | .two => { q with parallel2 := putBit q.parallel2 button.bit pressed }

/-- R407: `fill_audio(out, n)` removes the oldest `min(n, available)` samples; above 2048 it fails (error 710)
and removes nothing. -/
def Apu.dropSamples (u : Apu) (n : Nat) : Apu :=
  if n ≤ Config.audioBufferSize then { u with samples := u.samples.drop n } else u

/-- R434: one host call. -/
def hostCall (call : HostCall) (st : State) : State :=
  match call with
  | .input player button pressed => st.setPads (st.pads.press player button pressed)
  | .reset => consoleReset none st
  | .resetTo pc => consoleReset (some pc) st
  | .fillAudio n => st.setApu (st.apu.dropSamples n)

/-- R434, R431: the calls the host makes before this tick, in order. -/
def hostPhase (st : State) : State :=
  match st.hostCalls with
  | [] => st
  | calls :: rest => calls.foldl (fun st call => hostCall call st) (st.setHostCalls rest)

/-! ## What the host observes (R355, R407, R434) -/

/-- R355: `video_output`, the pixel in column `x` of row `y`. -/
def videoOutput (st : State) (x y : Nat) : BitVec 24 := Frame.get st.ppu.framebuffer (256 * y + x)

/-- R355: `frame_count()`, "monotonic counter of VBlank entries". -/
def frameCount (st : State) : Nat := st.ppu.frameCount

/-- R407: the samples `fill_audio(out, n)` copies out, oldest first; `none` is its failure for `n > 2048`. -/
def audioOut (st : State) (n : Nat) : Option (List Byte) :=
  if n ≤ Config.audioBufferSize then some (st.apu.samples.take n) else none

end Sys2Proof.Machine
end

