-- ==== Sys2Proof/Machine/Boundary.lean ====
section
/-! DEFINITION. Fetching an instruction (`30_encoding.md` R72), the boundary action and the CPU cycle
(`60_exceptions.md` R211), and the master tick (`70_reset_and_hazards.md` R430). Also how a program's bytes
are placed where the next fetch reads them. -/

namespace Sys2Proof.Machine

/-! ## Fetch (R12, R45, R72) -/

/-- R12: `opcode <- MemRead(PC, 1); PC <- (PC + 1) mod 65536`, and the same for each operand byte. -/
def fetchByte (st : State) : Byte × State :=
  let r := busRead st.pc st
  (r.1, r.2.setPc (st.pc + 1))

/-- R76, R199: PC passes the operand byte of an `xxx` slot of mode IMM, which stands at `ea`: no bus read is made
there (log entry 4). The byte is part of the instruction as data only. -/
def passByte (st : State) : Byte × State := (busPeek st.pc st, st.setPc (st.pc + 1))

/-- R72: the opcode byte, then the operand bytes its table entry needs, at ascending addresses. Every opcode
byte has an entry (R91), so there is always an instruction. -/
def fetchInstr (st : State) : Instr × State :=
  let op := fetchByte st
  match slotOf st.launch.xxxMode op.1 with
  | .one i => (i, op.2)
  | .two f =>
    let t := fetchByte op.2
    (f t.1, t.2)
  | .skip f =>
    let n := passByte op.2
    (f n.1, n.2)
  | .three f =>
    let lo := fetchByte op.2
    let hi := fetchByte lo.2
    (f (word hi.1 lo.1), hi.2)

/-! ## The cycle engine (R211) -/

/-- `f` on the next state; a fault or a refusal stays as it is. -/
def mapNext (f : State → State) :
    Host.Outcome State Fault Refusal → Host.Outcome State Fault Refusal
  | .next st => .next (f st)
  | .fault r => .fault r
  | .refused r => .refused r

/-- R214: an NMI service. -/
def serviceNmi (st : State) : State :=
  ((trapEntry false Config.nmiVector (st.setNmiPending false)).setDidNmi true).setBudget Config.nmiBudget

/-- R215: an IRQ service. -/
def serviceIrq (st : State) : State :=
  ((trapEntry false Config.irqVector (st.setIrqPending false)).setDidIrq true).setBudget Config.irqBudget

/-- R211: "the engine picks exactly one of" NMI service, IRQ service, one whole instruction. -/
def boundaryAction (st : State) : Host.Outcome State Fault Refusal :=
  let st := (st.setDidNmi false).setDidIrq false
  if st.nmiPending then .next (serviceNmi st)
  else if st.irqPending = true ∧ st.flag .i = false then .next (serviceIrq st)
  else exec (fetchInstr st).1 (fetchInstr st).2

/-- R211: `cycle_count <- cycle_count + 1; budget <- budget - 1`. -/
def retireCycle (st : State) : State :=
  (st.setCycleCount (st.cycleCount + 1)).setBudget (st.budget - 1)

/-- R211: `CpuCycle()`. -/
def cpuCycle (st : State) : Host.Outcome State Fault Refusal :=
  if st.halted then .next st
  else if st.budget = 0 then mapNext retireCycle (boundaryAction st)
  else .next (retireCycle st)

/-! ## The master clock (R430) -/

/-- R320: one PPU dot, with its two broadcasts (R351, R322). -/
def ppuTick (st : State) : State :=
  let resumes := st.ppu.resumesCpu
  let nmi := st.ppu.raisesNmi
  let st := st.setPpu (st.ppu.tick st.launch.cart)
  let st := if resumes then broadcast .cpuRsm st else st
  if nmi then broadcast .cpuNmi st else st

/-- R371: one APU cycle, with its broadcast (R401). -/
def apuTick (st : State) : State :=
  let irq := st.apu.raisesIrq st.launch
  let st := st.setApu (st.apu.cycle st.launch)
  if irq then broadcast .cpuIrq st else st

/-- R430: `tick_count <- tick_count + 1`. -/
def countTick (st : State) : State := st.setTickCount (st.tickCount + 1)

/-- R430: this tick carries a CPU cycle and an APU cycle. -/
def cpuTurn (st : State) : Bool := st.tickCount % 3 == st.launch.clockPhase.val

/-- R430: `Tick()`: the PPU, then on every third tick the CPU and the APU. -/
def tick (st : State) : Host.Outcome State Fault Refusal :=
  let st := ppuTick st
  if cpuTurn st then mapNext (fun st => countTick (apuTick st)) (cpuCycle st)
  else .next (countTick st)

/-! ## Placing a program (log entry 2) -/

/-- The place an access lands is plain storage: RAM, PRG-RAM or PRG-ROM. -/
def Target.isStorage : Target → Bool
  | .ram _ => true
  | .prgRam _ => true
  | .prgRom _ => true
  | .ppu _ => false
  | .apu _ => false
  | .pad _ => false
  | .nothing => false

/-- The three bytes from `addr` on are three different places of plain storage. -/
def holdsProgram (c : Cartridge) (addr : Addr) : Bool :=
  (route c addr).isStorage && (route c (addr + 1)).isStorage && (route c (addr + 2)).isStorage
    && route c addr != route c (addr + 1) && route c addr != route c (addr + 2)
    && route c (addr + 1) != route c (addr + 2)

/-- One byte put into storage from outside the machine, ROM included: what the cartridge image or the RAM
holds, not a bus write. -/
def pokeByte (addr : Addr) (b : Byte) (st : State) : State :=
  match route st.launch.cart addr with
  | .ram k => st.setRam (st.ram.write k b)
  | .prgRam k => st.setPrgRam (st.prgRam.write k b)
  | .prgRom k =>
    { st with
      launch := { st.launch with cart := { st.launch.cart with prgRom := st.launch.cart.prgRom.write k b } } }
  | .ppu _ => st
  | .apu _ => st
  | .pad _ => st
  | .nothing => st

/-- `bytes` at ascending addresses from `addr` on. -/
def pokeBytes (addr : Addr) : List Byte → State → State
  | [], st => st
  | b :: rest, st => pokeBytes (addr + 1) rest (pokeByte addr b st)

/-- `st` brought to a tick that runs an instruction: an un-halted boundary on a CPU tick with no host call, no
interrupt about to be serviced, and PC where bytes can be placed. Each change is made only where `st` is
not already so; `State.reset` is left as it is. -/
def atFetch (st : State) : State :=
  let st := st.setHostCalls (if st.hostCalls.head?.getD [] = [] then st.hostCalls else [])
  let st := if cpuTurn st then st else st.setTickCount st.launch.clockPhase.val
  let st := (st.setHalted false).setBudget 0
  let st := st.setNmiPending false
  let st := if st.ppu.raisesNmi then st.setPpu { st.ppu with ctrl := putBit st.ppu.ctrl 7 false } else st
  let st := if st.flag .i then st else st.setIrqPending false
  if holdsProgram st.launch.cart st.pc then st else st.setPc 0x0000

end Sys2Proof.Machine
end

