-- ==== Sys2Proof/Machine/Step.lean ====
section
/-! DEFINITION. One step of the machine: the host calls made before this tick, then one master tick
(`70_reset_and_hazards.md` R430, R431: "A tick is indivisible"). -/

namespace Sys2Proof.Machine

/-- R430, R434: the host calls due now, then `Tick()`. -/
def step (st : State) : Host.Outcome State Fault Refusal := tick (hostPhase st)

/-- `s` with the instruction whose bits are `w` placed where the next step fetches. -/
def State.withFetchWord (s : State) (nbits w : Nat) : State :=
  pokeBytes (atFetch s).pc (tableBytes nbits w) (atFetch s)

end Sys2Proof.Machine
end

