-- ==== Sys2Proof/Safety.lean ====
section
/-! DEFINITION. What the claims call a good state. `State.Ok` says the memories are in canonical form, the
numbers the spec bounds are within their bounds, and bit 5 of P is 1; every conjunct is a rule. -/

namespace Sys2Proof.Machine

/-- `m` is in canonical form and its addresses lie below `size`. -/
def Memory.Sized (m : Memory) (size : Nat) : Prop := Memory.wf m ∧ ∀ c ∈ m, c.1 < size

/-- The cartridge images are in canonical form. -/
def Cartridge.Ok (c : Cartridge) : Prop :=
  Memory.wf c.prgRom ∧ ∀ m, c.chrRom = some m → Memory.wf m

/-- R7: what the spec says of the launch parameters' values: the images are in canonical form, `base_cycles` gives
1 to 8, and a rational has a denominator above 0. -/
structure Launch.Ok (l : Launch) : Prop where
  cart : l.cart.Ok
  cycles : ∀ op, 1 ≤ l.cycles op ∧ l.cycles op ≤ 8
  samplePeriod : 0 < l.samplePeriod.den
  pulseMix : ∀ r ∈ l.pulseMix, 0 < r.den
  tndMix : ∀ r ∈ l.tndMix, 0 < r.den

/-- R300: `dot` (0..340), `scanline` (0..261), a buffer of up to 8 entries, status bits 7-5 only; two 1-KiB nametables, 32 bytes
of palette RAM, 256 bytes of OAM, rising framebuffer keys; R350: the countdown starts at 1539. -/
structure Ppu.Ok (p : Ppu) : Prop where
  dot_le : p.dot ≤ 340
  scanline_le : p.scanline ≤ 261
  sprites_le : p.sprites.length ≤ 8
  status_low : p.status &&& 0x1F = 0
  dma_le : p.dmaCounter ≤ Config.dmaDots
  nt_sized : Memory.Sized p.nt 2048
  pal_sized : Memory.Sized p.pal 32
  oam_sized : Memory.Sized p.oam 256
  frame_sorted : List.Pairwise (fun x y => x.1 < y.1) p.framebuffer

/-- R370, R400, R407, R392: `frame_step` within the sequence of the mode, a ring of 2048 samples, an LFSR that is never 0. -/
structure Apu.Ok (u : Apu) : Prop where
  frameStep_lt : u.frameStep < if u.fiveStep then 5 else 4
  samples_le : u.samples.length ≤ Config.audioBufferSize
  lfsr_ne : u.noise.lfsr ≠ 0

/-- The invariant of the machine: R260's 2 KiB of RAM, and R18: "This spec keeps the stronger invariant `P.U = 1` in every state". -/
structure State.Ok (st : State) : Prop where
  unused : st.flag .u = true
  ram_sized : Memory.Sized st.ram 2048
  prgRam_wf : Memory.wf st.prgRam
  launch : st.launch.Ok
  ppu : st.ppu.Ok
  apu : st.apu.Ok

/-! ## Frames: what an instruction leaves as it was -/

/-- The parts of the state a frame names one by one. The flags and memory have their own clauses. -/
inductive Part where
  | a | x | y | s | pc | halted | ppu | apu | pads
  deriving DecidableEq, Repr

/-- What `t` keeps of `st`: every part but the `written` ones, every flag but the named ones, and, always, the
latches, counters, launch parameters and host calls that no instruction writes (R26, R28, R30). -/
structure Keeps (written : List Part) (flags : List Flag) (st t : State) : Prop where
  a : Part.a ∉ written → t.a = st.a
  x : Part.x ∉ written → t.x = st.x
  y : Part.y ∉ written → t.y = st.y
  s : Part.s ∉ written → t.s = st.s
  pc : Part.pc ∉ written → t.pc = st.pc
  halted : Part.halted ∉ written → t.halted = st.halted
  ppu : Part.ppu ∉ written → t.ppu = st.ppu
  apu : Part.apu ∉ written → t.apu = st.apu
  pads : Part.pads ∉ written → t.pads = st.pads
  flag : ∀ f, f ∉ flags → t.flag f = st.flag f
  nmiPending : t.nmiPending = st.nmiPending
  irqPending : t.irqPending = st.irqPending
  cycleCount : t.cycleCount = st.cycleCount
  didNmi : t.didNmi = st.didNmi
  didIrq : t.didIrq = st.didIrq
  tickCount : t.tickCount = st.tickCount
  launch : t.launch = st.launch
  hostCalls : t.hostCalls = st.hostCalls

/-- Of `Target.isStorage`, the places a bus write changes: RAM and PRG-RAM, not PRG-ROM (R49). -/
def Target.isWritable : Target → Bool
  | .ram _ => true
  | .prgRam _ => true
  | .prgRom _ => false
  | .ppu _ => false
  | .apu _ => false
  | .pad _ => false
  | .nothing => false

/-- Every byte of RAM, PRG-RAM and PRG-ROM reads in `t` as it read in `st`, but for the `stores`: pairs of an
address and the byte stored there. A mirror of a stored address is the same byte (R262), and a store to ROM
stores nothing (R49). -/
def StoresBytes (stores : List (Addr × Byte)) (st t : State) : Prop :=
  ∀ addr, (route st.launch.cart addr).isStorage = true →
    busPeek addr t =
      match stores.find? (fun w => decide (route st.launch.cart w.1 = route st.launch.cart addr)
          && (route st.launch.cart w.1).isWritable) with
      | some w => w.2
      | none => busPeek addr st

/-- Every byte of memory reads as before. -/
def KeepsMemory (st t : State) : Prop := StoresBytes [] st t

/-- The devices of `t`, and the halt latch, are as in `w`. -/
structure SameDevices (w t : State) : Prop where
  ppu : t.ppu = w.ppu
  apu : t.apu = w.apu
  pads : t.pads = w.pads
  halted : t.halted = w.halted

/-- R20: Z and N of `t` describe the result `v`. -/
def ShowsZN (v : Byte) (t : State) : Prop := t.flag .z = (v == 0) ∧ t.flag .n = v.getLsbD 7

/-- R72, R90: `t` has the budget of an instruction with opcode `op` and no surcharge that began in `st`: the base
count the launch gives `op`; the spec's default for it is `n` (log entry 5). -/
structure Takes (op : Byte) (n : Nat) (st t : State) : Prop where
  budget : t.budget = st.launch.cycles op
  default : Launch.default.cycles op = n

/-- R88, R89: what the opcode map's cell gives an instruction: its opcode byte and its default base count. -/
def tableEntry (i : Instr) : Byte × Nat := (i.opcode, Launch.default.cycles i.opcode)

/-- R73, R87, R90: what a read-type instruction leaves beside its result: the devices as the operand read left
them, the budget with the page-cross cycle, and memory as it was. -/
structure ReadsOperand (i : Instr) (src : Source) (st t : State) : Prop where
  ppu : t.ppu = (fetchOperand src st).state.ppu
  pads : t.pads = (fetchOperand src st).state.pads
  budget : t.budget = st.launch.cycles i.opcode + (if (fetchOperand src st).crossed then 1 else 0)
  memory : KeepsMemory st t

/-- R53, R100: what storing `v` at `ea` leaves, when `before` is the state the store is made in: the byte at
`ea` and no other, the devices as the bus write leaves them, and none of them touched where `ea` is plain memory. -/
structure StoresOne (ea : Addr) (v : Byte) (before st t : State) : Prop where
  memory : StoresBytes [(ea, v)] st t
  devices : SameDevices (busWrite ea v before) t
  plain : (route st.launch.cart ea).isStorage = true → SameDevices st t

/-- A run of `k` steps from `st` that stops nowhere and stays good. R210, R435: no run of the machine stops. -/
def SafeRun : Nat → State → Prop
  | 0, st => st.Ok
  | k + 1, st => st.Ok ∧ ∃ t, step st = .next t ∧ SafeRun k t

end Sys2Proof.Machine
end

