-- ==== Sys2Proof/Certificates/Slice0/Obligations.lean ====
section
/-! DEFINITION. The statements for the provers. Each docstring names the rules of the spec the statement rests
on; where a statement rests on a choice of the model, it names the log entry. -/

section
open Sys2Proof Sys2Proof.Machine

/-! ## Encoding -/

/-- R70, R89, R92: whatever mode `xxx_mode` gives each unassigned byte, decoding the bytes of a well-formed
instruction gives that instruction, whatever follows them, and the bytes are as many as its length. -/
def Obligations.DecodeOfEncode : Prop :=
  ∀ (modes : XxxModes) (i : Instr) (rest : List Byte), i.WellFormed modes = true →
    decode modes (encode i ++ rest) = .ok (i, rest) ∧ (encode i).length = i.length

/-- R70, R71: whatever decodes is well formed and has only those bytes as its encoding. -/
def Obligations.EncodeOfDecode : Prop :=
  ∀ (modes : XxxModes) (bytes rest : List Byte) (i : Instr), decode modes bytes = .ok (i, rest) →
    i.WellFormed modes = true ∧ bytes = encode i ++ rest

/-- R70, R91: every opcode byte has one entry, with 0, 1 or 2 operand bytes; bytes are refused only because
operand bytes are missing. An unassigned byte has as many as the mode `xxx_mode` gives it. -/
def Obligations.EveryByteDecodes : Prop :=
  ∀ modes : XxxModes, decode modes [] = .error .noBytes ∧
  ∀ op : Byte, ∃ n, n ≤ 2 ∧ (isUnassigned op = true → n = (modes.mode op).operandBytes) ∧ ∀ rest : List Byte,
    (n ≤ rest.length → ∃ i, decode modes (op :: rest) = .ok (i, rest.drop n) ∧ i.opcode = op ∧ i.length = n + 1) ∧
    (rest.length < n → decode modes (op :: rest) = .error (.truncated op))

/-- R88, R93: words written out from the spec's encoding, one or more for each family of the opcode table. The last
is an unassigned byte, with the default `xxx_mode` (log entry 6). -/
def Obligations.SampleWords : Prop :=
  (∀ modes : XxxModes,
    decode modes [0xA9, 0x10] = .ok (.lda (.imm 0x10), []) ∧
    decode modes [0xB6, 0x10] = .ok (.ldx (.zpy 0x10), []) ∧
    decode modes [0x8D, 0x00, 0x02] = .ok (.sta (.abs 0x0200), []) ∧
    decode modes [0x9A] = .ok (.txs, []) ∧
    decode modes [0x08] = .ok (.php, []) ∧
    decode modes [0x2C, 0x02, 0x20] = .ok (.bit (.abs 0x2002), []) ∧
    decode modes [0x71, 0x10] = .ok (.adc (.izy 0x10), []) ∧
    decode modes [0x3E, 0x34, 0x12] = .ok (.rol (.abx 0x1234), []) ∧
    decode modes [0x0A] = .ok (.asl .acc, []) ∧
    decode modes [0x6C, 0xFF, 0x02] = .ok (.jmp (.ind 0x02FF), []) ∧
    decode modes [0xD0, 0xFB] = .ok (.bne 0xFB, []) ∧
    decode modes [0x00] = .ok (.brk, []) ∧
    decode modes [0x78] = .ok (.sei, [])) ∧
  decode defaultXxxModes [0x0C, 0x02, 0x20] = .ok (.xxx 0x0C (.mem (.abs 0x2002)), [])

/-! ## Fetch and step -/

/-- R72, R45, R12: the fetch reads as many bytes as the decoder needs, one after the other, and leaves PC after
the last; the instruction is the one those bytes decode to. The operand byte of an XXX of mode IMM is passed over
without a read (R76, R199, log entry 4). -/
def Obligations.FetchReadsTheInstruction : Prop :=
  ∀ (st : State) (i : Instr) (rest : List Byte),
    decode st.launch.xxxMode
        [(fetchByte st).1, (fetchByte (fetchByte st).2).1, (fetchByte (fetchByte (fetchByte st).2).2).1]
      = .ok (i, rest) →
    (fetchInstr st).1 = i ∧
    (∀ op n, i = .xxx op (.imm n) → (fetchInstr st).2 = (fetchByte st).2.setPc (st.pc + 2)) ∧
    ((∀ op n, i ≠ .xxx op (.imm n)) → (fetchInstr st).2 =
      match i.mode.operandBytes with
      | 0 => (fetchByte st).2
      | 1 => (fetchByte (fetchByte st).2).2
      | _ => (fetchByte (fetchByte (fetchByte st).2).2).2) ∧
    (fetchInstr st).2.pc = st.pc + BitVec.ofNat 16 i.length

/-- R72, R211, R430: at an un-halted boundary on a CPU tick with no interrupt to service, where the bytes at PC
lie in plain memory and decode to `i`, the step is the PPU dot, then `exec i` with PC past the instruction, then
the count of the cycle, the APU cycle and the tick. -/
def Obligations.StepRunsTheDecodedInstruction : Prop :=
  ∀ (st : State) (i : Instr) (rest : List Byte),
    cpuTurn (ppuTick (hostPhase st)) = true →
    (ppuTick (hostPhase st)).halted = false →
    (ppuTick (hostPhase st)).budget = 0 →
    (ppuTick (hostPhase st)).nmiPending = false →
    ((ppuTick (hostPhase st)).irqPending = false ∨ (ppuTick (hostPhase st)).flag .i = true) →
    decode st.launch.xxxMode [busPeek (ppuTick (hostPhase st)).pc (ppuTick (hostPhase st)),
      busPeek ((ppuTick (hostPhase st)).pc + 1) (ppuTick (hostPhase st)),
      busPeek ((ppuTick (hostPhase st)).pc + 2) (ppuTick (hostPhase st))] = .ok (i, rest) →
    (∀ k, k < i.length → (route st.launch.cart ((ppuTick (hostPhase st)).pc + BitVec.ofNat 16 k)).isStorage = true) →
    step st = mapNext (fun t => countTick (apuTick (retireCycle t)))
      (exec i ((((ppuTick (hostPhase st)).setDidNmi false).setDidIrq false).setPc
        ((ppuTick (hostPhase st)).pc + BitVec.ofNat 16 i.length)))

/-- R210, R435, R49: no instruction stops the machine, and no step does. -/
def Obligations.NothingStops : Prop :=
  (∀ (i : Instr) (st : State), ∃ t, exec i st = .next t) ∧ ∀ st : State, ∃ t, step st = .next t

/-- R300, R370, R392, R18, R260: every step from a good state leaves a good state (`State.Ok`): P bit 5 is 1, the
memories are in canonical form and within their sizes, every counter is within its range, and the launch parameters
are as R7 bounds them. -/
def Obligations.StepKeepsOk : Prop :=
  ∀ st t : State, st.Ok → step st = .next t → t.Ok

/-- The state after reset is good. It rests on the model's choices of log entries 1 and 2 (what memory holds and
which cartridge is inserted at reset). -/
def Obligations.ResetIsOk : Prop := State.reset.Ok

/-- R7, R30, R434: no step changes a launch parameter, and each step uses up one entry of the host calls. -/
def Obligations.LaunchParametersAreFixed : Prop :=
  ∀ st t : State, step st = .next t → t.launch = st.launch ∧ t.hostCalls = st.hostCalls.tail

/-- R26, R28: "No instruction reads or writes" the interrupt latches, and `cycle_count` is read by nothing:
running any instruction with other values of them gives the same result with those values. -/
def Obligations.InstructionsIgnoreTheLatches : Prop :=
  ∀ (i : Instr) (st : State) (n q : Bool) (c : BitVec 64),
    exec i (((st.setNmiPending n).setIrqPending q).setCycleCount c) =
      mapNext (fun t => ((t.setNmiPending n).setIrqPending q).setCycleCount c) (exec i st)

/-! ## The bus -/

/-- R50, R303, R307, R282: what a read changes, at the four kinds of address whose read has a side effect, and
that a read of any other address changes nothing. -/
def Obligations.ReadSideEffects : Prop :=
  ∀ (addr : Addr) (st : State),
    (0x2000 ≤ addr.toNat → addr.toNat < 0x4000 → addr.toNat % 8 = 2 →
      (busRead addr st).2 = st.setPpu { st.ppu with status := putBit st.ppu.status 7 false, w := false }) ∧
    (0x2000 ≤ addr.toNat → addr.toNat < 0x4000 → addr.toNat % 8 = 7 →
      (busRead addr st).2 = st.setPpu
        { st.ppu with
          dataBuffer := st.ppu.busRead st.launch.cart (st.ppu.v.setWidth 14)
          v := st.ppu.v + (if st.ppu.ctrl.getLsbD 2 then 32 else 1) }) ∧
    (addr.toNat = 0x4016 → (busRead addr st).2 = st.setPads { st.pads with shift1 := st.pads.shift1 <<< 1 }) ∧
    (addr.toNat = 0x4017 → (busRead addr st).2 = st.setPads { st.pads with shift2 := st.pads.shift2 <<< 1 }) ∧
    (¬ (0x2000 ≤ addr.toNat ∧ addr.toNat < 0x4000 ∧ (addr.toNat % 8 = 2 ∨ addr.toNat % 8 = 7)) →
      addr.toNat ≠ 0x4016 → addr.toNat ≠ 0x4017 → (busRead addr st).2 = st)

/-- R262: both mirrors forward a read, a write and a peek to the peer's address. -/
def Obligations.MirrorsForward : Prop :=
  ∀ (addr : Addr) (b : Byte) (st : State),
    (0x0800 ≤ addr.toNat → addr.toNat ≤ 0x1FFF →
      (addr - 0x0800) &&& 0x07FF = addr &&& 0x07FF ∧
      busRead addr st = busRead ((addr - 0x0800) &&& 0x07FF) st ∧
      busWrite addr b st = busWrite ((addr - 0x0800) &&& 0x07FF) b st ∧
      busPeek addr st = busPeek ((addr - 0x0800) &&& 0x07FF) st) ∧
    (0x2008 ≤ addr.toNat → addr.toNat ≤ 0x3FFF →
      0x2000 + ((addr - 0x2008) &&& 7) = 0x2000 + (addr &&& 7) ∧
      busRead addr st = busRead (0x2000 + ((addr - 0x2008) &&& 7)) st ∧
      busWrite addr b st = busWrite (0x2000 + ((addr - 0x2008) &&& 7)) b st ∧
      busPeek addr st = busPeek (0x2000 + ((addr - 0x2008) &&& 7)) st)

/-- R271: mapper 0 on the CPU side, reads and writes, with the masks of the rule; reads have no side effect. -/
def Obligations.MapperZero : Prop :=
  ∀ (addr : Addr) (b : Byte) (st : State), st.launch.cart.inserted = true →
    (0x4020 ≤ addr.toNat → addr.toNat ≤ 0x5FFF → busRead addr st = (0, st) ∧ busWrite addr b st = st) ∧
    (∀ k, st.launch.cart.prgRamLog = some k → 0x6000 ≤ addr.toNat → addr.toNat ≤ 0x7FFF →
      busRead addr st = (st.prgRam.read ((addr.toNat - 0x6000) &&& (2 ^ k - 1)), st) ∧
      busWrite addr b st = st.setPrgRam (st.prgRam.write ((addr.toNat - 0x6000) &&& (2 ^ k - 1)) b)) ∧
    (st.launch.cart.prgRamLog = none → 0x6000 ≤ addr.toNat → addr.toNat ≤ 0x7FFF →
      busRead addr st = (0, st) ∧ busWrite addr b st = st) ∧
    (0x8000 ≤ addr.toNat →
      busRead addr st =
        (st.launch.cart.prgRom.read ((addr.toNat - 0x8000) &&& (st.launch.cart.prgSize.bytes - 1)), st) ∧
      busWrite addr b st = st)

/-- R49, R270: an address no device owns, and every cartridge address with no cartridge, reads 0 and drops a write. -/
def Obligations.UnownedAddresses : Prop :=
  ∀ (addr : Addr) (b : Byte) (st : State),
    (0x4018 ≤ addr.toNat ∧ addr.toNat ≤ 0x401F ∨ 0x4020 ≤ addr.toNat ∧ st.launch.cart.inserted = false) →
    busRead addr st = (0, st) ∧ busWrite addr b st = st

/-- R260, R271, R49: after a bus write, a byte of RAM or PRG-RAM reads as written at its address and at every
mirror of it, and every other byte of memory, ROM included, reads as before. -/
def Obligations.MemoryReadAfterWrite : Prop :=
  ∀ (addr other : Addr) (b : Byte) (st : State), (route st.launch.cart other).isStorage = true →
    ((route st.launch.cart addr).isWritable = true → route st.launch.cart other = route st.launch.cart addr →
      busPeek other (busWrite addr b st) = b) ∧
    ((route st.launch.cart addr).isWritable = false ∨ route st.launch.cart other ≠ route st.launch.cart addr →
      busPeek other (busWrite addr b st) = busPeek other st)

/-- R280, R281, R282, R284: after a write of `0x4016`, whatever the byte, the reads of a port give the player's
buttons from bit 7 down to bit 0, and 0 from the ninth read on. -/
def Obligations.ControllerSerialOrder : Prop :=
  ∀ (st : State) (b : Byte) (k : Nat),
    (busRead 0x4016 ((fun s => (busRead 0x4016 s).2)^[k] (busWrite 0x4016 b st))).1 =
      (if k < 8 ∧ st.pads.parallel1.getLsbD (7 - k) = true then 1 else 0) ∧
    (busRead 0x4017 ((fun s => (busRead 0x4017 s).2)^[k] (busWrite 0x4016 b st))).1 =
      (if k < 8 ∧ st.pads.parallel2.getLsbD (7 - k) = true then 1 else 0)

/-! ## The APU -/

/-- R283, R402: a write of `0x4017` sets the mode from bit 7 and the inhibit from bit 6 and restarts the sequence;
it clocks nothing, latches nothing and leaves `irq_pending` alone. -/
def Obligations.FrameCounterControl : Prop :=
  ∀ (b : Byte) (st : State),
    busWrite 0x4017 b st = st.setApu
      { st.apu with fiveStep := b.getLsbD 7, irqInhibit := b.getLsbD 6, frameCycle := 0, frameStep := 0 }

/-- R384: `0x4015`. A write sets the four enable bits and zeroes the length of a channel it disables; a read shows
which lengths are above 0, in bits 0 to 3 with bits 4 to 7 clear, and changes nothing. -/
def Obligations.ApuStatusRegister : Prop :=
  ∀ (b : Byte) (st : State),
    busWrite 0x4015 b st = st.setApu
      { st.apu with
        pulse1 :=
          { st.apu.pulse1 with
            enabled := b.getLsbD 0, length := if b.getLsbD 0 then st.apu.pulse1.length else 0 }
        pulse2 :=
          { st.apu.pulse2 with
            enabled := b.getLsbD 1, length := if b.getLsbD 1 then st.apu.pulse2.length else 0 }
        triangle :=
          { st.apu.triangle with
            enabled := b.getLsbD 2, length := if b.getLsbD 2 then st.apu.triangle.length else 0 }
        noise :=
          { st.apu.noise with
            enabled := b.getLsbD 3, length := if b.getLsbD 3 then st.apu.noise.length else 0 } } ∧
    (busRead 0x4015 st).2 = st ∧
    ((busRead 0x4015 st).1.getLsbD 0 = true ↔ 0 < st.apu.pulse1.length) ∧
    ((busRead 0x4015 st).1.getLsbD 1 = true ↔ 0 < st.apu.pulse2.length) ∧
    ((busRead 0x4015 st).1.getLsbD 2 = true ↔ 0 < st.apu.triangle.length) ∧
    ((busRead 0x4015 st).1.getLsbD 3 = true ↔ 0 < st.apu.noise.length) ∧
    (busRead 0x4015 st).1 &&& 0xF0 = 0

/-- R386: "Length counter, once zero, stays zero until re-initialized" by a write of the channel's own load
register: no APU cycle and no other register write raises it. -/
def Obligations.LengthStaysZero : Prop :=
  ∀ (u : Apu) (l : Launch) (r : Nat) (b : Byte),
    (u.pulse1.length = 0 →
      (u.cycle l).pulse1.length = 0 ∧ (r ≠ 0x03 → (u.writeReg l r b).pulse1.length = 0)) ∧
    (u.pulse2.length = 0 →
      (u.cycle l).pulse2.length = 0 ∧ (r ≠ 0x07 → (u.writeReg l r b).pulse2.length = 0)) ∧
    (u.triangle.length = 0 →
      (u.cycle l).triangle.length = 0 ∧ (r ≠ 0x0B → (u.writeReg l r b).triangle.length = 0)) ∧
    (u.noise.length = 0 →
      (u.cycle l).noise.length = 0 ∧ (r ≠ 0x0F → (u.writeReg l r b).noise.length = 0))

/-- R400, R401: `CPU_IRQ` is raised on exactly the cycles on which the fourth step of the 4-step sequence falls
due with the inhibit clear, and an APU cycle changes nothing but the APU and that latch. That a step with no entry in
`frame_step_cycles` never falls due is the model's choice (log entry 22). -/
def Obligations.FrameIrq : Prop :=
  ∀ st : State,
    (apuTick st).irqPending =
      (st.irqPending ||
        (!st.apu.fiveStep && !st.apu.irqInhibit && st.apu.frameStep == 3 &&
          st.launch.frameStepCycles[3]? == some (st.apu.frameCycle + 1))) ∧
    apuTick st = (st.setApu (st.apu.cycle st.launch)).setIrqPending (apuTick st).irqPending

/-! ## Operands -/

/-- R77 to R79, R81 to R83, R85, R86, R73, R76: the effective address of every memory mode, with its wraps and its
page-cross mark, and what `Fetch()` reads there; resolving a mode changes no state. -/
def Obligations.EffectiveAddresses : Prop :=
  ∀ (st : State) (t : Byte) (w : Addr),
    resolve (.zp0 t) st = { ea := zext16 t, crossed := false, state := st } ∧
    resolve (.zpx t) st = { ea := BitVec.ofNat 16 ((t.toNat + st.x.toNat) % 256), crossed := false, state := st } ∧
    resolve (.zpy t) st = { ea := BitVec.ofNat 16 ((t.toNat + st.y.toNat) % 256), crossed := false, state := st } ∧
    resolve (.abs w) st = { ea := w, crossed := false, state := st } ∧
    resolve (.abx w) st =
      { ea := BitVec.ofNat 16 (w.toNat + st.x.toNat)
        crossed := decide ((w.toNat + st.x.toNat) % 65536 / 256 ≠ w.toNat / 256), state := st } ∧
    resolve (.aby w) st =
      { ea := BitVec.ofNat 16 (w.toNat + st.y.toNat)
        crossed := decide ((w.toNat + st.y.toNat) % 65536 / 256 ≠ w.toNat / 256), state := st } ∧
    resolve (.izx t) st =
      { ea := word (busPeek (BitVec.ofNat 16 ((t.toNat + st.x.toNat + 1) % 256)) st)
          (busPeek (BitVec.ofNat 16 ((t.toNat + st.x.toNat) % 256)) st)
        crossed := false, state := st } ∧
    (∀ base : Addr, base = word (busPeek (BitVec.ofNat 16 ((t.toNat + 1) % 256)) st) (busPeek (zext16 t) st) →
      resolve (.izy t) st =
        { ea := BitVec.ofNat 16 (base.toNat + st.y.toNat)
          crossed := decide ((base.toNat + st.y.toNat) % 65536 / 256 ≠ base.toNat / 256), state := st }) ∧
    fetchOperand (.imm t) st = { value := t, crossed := false, state := st } ∧
    ∀ m : MemOperand,
      fetchOperand (.mem m) st =
        { value := busPeek (resolve m st).ea st, crossed := (resolve m st).crossed
          state := (busRead (resolve m st).ea st).2 }

/-! ## Transfers and the stack -/

/-- R101, R102, R103: the loads, at every mode: the register, Z and N, the page-cross cycle, the encoding, and
nothing else but the side effect of the operand read. -/
def Obligations.Loads : Prop :=
  (∀ (f : AluForm) (st : State), ∃ t, exec (.lda f) st = .next t ∧
    t.a = (fetchOperand f.source st).value ∧ ShowsZN t.a t ∧ ReadsOperand (.lda f) f.source st t ∧
    Keeps [.a, .ppu, .pads] [.z, .n] st t) ∧
  (∀ (f : LdxForm) (st : State), ∃ t, exec (.ldx f) st = .next t ∧
    t.x = (fetchOperand f.source st).value ∧ ShowsZN t.x t ∧ ReadsOperand (.ldx f) f.source st t ∧
    Keeps [.x, .ppu, .pads] [.z, .n] st t) ∧
  (∀ (f : LdyForm) (st : State), ∃ t, exec (.ldy f) st = .next t ∧
    t.y = (fetchOperand f.source st).value ∧ ShowsZN t.y t ∧ ReadsOperand (.ldy f) f.source st t ∧
    Keeps [.y, .ppu, .pads] [.z, .n] st t) ∧
  (∀ (n : Byte) (w : Addr),
    [AluForm.imm n, .zp0 n, .zpx n, .abs w, .abx w, .aby w, .izx n, .izy n].map (fun f => tableEntry (.lda f)) =
      [(0xA9, 2), (0xA5, 3), (0xB5, 4), (0xAD, 4), (0xBD, 4), (0xB9, 4), (0xA1, 6), (0xB1, 5)] ∧
    [LdxForm.imm n, .zp0 n, .zpy n, .abs w, .aby w].map (fun f => tableEntry (.ldx f)) =
      [(0xA2, 2), (0xA6, 3), (0xB6, 4), (0xAE, 4), (0xBE, 4)] ∧
    [LdyForm.imm n, .zp0 n, .zpx n, .abs w, .abx w].map (fun f => tableEntry (.ldy f)) =
      [(0xA0, 2), (0xA4, 3), (0xB4, 4), (0xAC, 4), (0xBC, 4)])

/-- R104, R105, R106, R100: the stores, at every mode: one byte at the effective address, no register, no flag,
no read of the address, the base cycles with no surcharge and their default, the encoding. -/
def Obligations.Stores : Prop :=
  (∀ (f : StaForm) (st : State), ∃ t, exec (.sta f) st = .next t ∧
    StoresOne (resolve f.operand st).ea st.a st st t ∧ t.budget = st.launch.cycles (Instr.sta f).opcode ∧
    Keeps [.halted, .ppu, .apu, .pads] [] st t) ∧
  (∀ (f : StxForm) (st : State), ∃ t, exec (.stx f) st = .next t ∧
    StoresOne (resolve f.operand st).ea st.x st st t ∧ t.budget = st.launch.cycles (Instr.stx f).opcode ∧
    Keeps [.halted, .ppu, .apu, .pads] [] st t) ∧
  (∀ (f : StyForm) (st : State), ∃ t, exec (.sty f) st = .next t ∧
    StoresOne (resolve f.operand st).ea st.y st st t ∧ t.budget = st.launch.cycles (Instr.sty f).opcode ∧
    Keeps [.halted, .ppu, .apu, .pads] [] st t) ∧
  (∀ (n : Byte) (w : Addr),
    [StaForm.zp0 n, .zpx n, .abs w, .abx w, .aby w, .izx n, .izy n].map (fun f => tableEntry (.sta f)) =
      [(0x85, 3), (0x95, 4), (0x8D, 4), (0x9D, 5), (0x99, 5), (0x81, 6), (0x91, 6)] ∧
    [StxForm.zp0 n, .zpy n, .abs w].map (fun f => tableEntry (.stx f)) =
      [(0x86, 3), (0x96, 4), (0x8E, 4)] ∧
    [StyForm.zp0 n, .zpx n, .abs w].map (fun f => tableEntry (.sty f)) =
      [(0x84, 3), (0x94, 4), (0x8C, 4)])

/-- R107 to R112: the register moves, with their encodings and their base count (the default
is 2, log entry 5); TXS writes no flag. -/
def Obligations.RegisterMoves : Prop :=
  (∀ st : State, ∃ t, exec .tax st = .next t ∧ t.x = st.a ∧ ShowsZN st.a t ∧ Takes 0xAA 2 st t ∧
    Keeps [.x] [.z, .n] st t ∧ KeepsMemory st t) ∧
  (∀ st : State, ∃ t, exec .tay st = .next t ∧ t.y = st.a ∧ ShowsZN st.a t ∧ Takes 0xA8 2 st t ∧
    Keeps [.y] [.z, .n] st t ∧ KeepsMemory st t) ∧
  (∀ st : State, ∃ t, exec .txa st = .next t ∧ t.a = st.x ∧ ShowsZN st.x t ∧ Takes 0x8A 2 st t ∧
    Keeps [.a] [.z, .n] st t ∧ KeepsMemory st t) ∧
  (∀ st : State, ∃ t, exec .tya st = .next t ∧ t.a = st.y ∧ ShowsZN st.y t ∧ Takes 0x98 2 st t ∧
    Keeps [.a] [.z, .n] st t ∧ KeepsMemory st t) ∧
  (∀ st : State, ∃ t, exec .tsx st = .next t ∧ t.x = st.s ∧ ShowsZN st.s t ∧ Takes 0xBA 2 st t ∧
    Keeps [.x] [.z, .n] st t ∧ KeepsMemory st t) ∧
  (∀ st : State, ∃ t, exec .txs st = .next t ∧ t.s = st.x ∧ Takes 0x9A 2 st t ∧
    Keeps [.s] [] st t ∧ KeepsMemory st t) ∧
  [Instr.tax, .tay, .txa, .tya, .tsx, .txs].map encode = [[0xAA], [0xA8], [0x8A], [0x98], [0xBA], [0x9A]]

/-- R120, R121, R15: PHA and PHP: one byte on the stack page, S one lower, the base count (the
default is 3, log entry 5), no flag. -/
def Obligations.Pushes : Prop :=
  (∀ st : State, ∃ t, exec .pha st = .next t ∧ t.s = st.s - 1 ∧
    StoresBytes [(0x0100 ||| zext16 st.s, st.a)] st t ∧ Takes 0x48 3 st t ∧ Keeps [.s] [] st t) ∧
  (∀ st : State, ∃ t, exec .php st = .next t ∧ t.s = st.s - 1 ∧
    StoresBytes [(0x0100 ||| zext16 st.s, st.p ||| 0x30)] st t ∧ Takes 0x08 3 st t ∧ Keeps [.s] [] st t) ∧
  encode .pha = [0x48] ∧ encode .php = [0x08]

/-- R122, R123, R16: PLA and PLP: S one higher, the byte there in A (with Z and N) or in P (B kept, U forced to 1),
the base count (the default is 4, log entry 5); no byte of memory changes. -/
def Obligations.Pulls : Prop :=
  (∀ st : State, ∃ t, exec .pla st = .next t ∧ t.s = st.s + 1 ∧
    t.a = busPeek (0x0100 ||| zext16 (st.s + 1)) st ∧ ShowsZN t.a t ∧ Takes 0x68 4 st t ∧
    Keeps [.a, .s] [.z, .n] st t ∧ KeepsMemory st t) ∧
  (∀ st : State, ∃ t, exec .plp st = .next t ∧ t.s = st.s + 1 ∧
    t.p = (busPeek (0x0100 ||| zext16 (st.s + 1)) st &&& 0xCF) ||| (st.p &&& 0x10) ||| 0x20 ∧
    t.flag .b = st.flag .b ∧ t.flag .u = true ∧ Takes 0x28 4 st t ∧
    Keeps [.s] [.c, .z, .i, .d, .v, .n, .u] st t ∧ KeepsMemory st t) ∧
  encode .pla = [0x68] ∧ encode .plp = [0x28]

/-! ## Logic and arithmetic -/

/-- R131, R132, R133: AND, EOR and ORA, at every mode. -/
def Obligations.LogicalOperations : Prop :=
  (∀ (f : AluForm) (st : State), ∃ t, exec (.and f) st = .next t ∧
    (∀ k, t.a.getLsbD k = (st.a.getLsbD k && (fetchOperand f.source st).value.getLsbD k)) ∧ ShowsZN t.a t ∧
    ReadsOperand (.and f) f.source st t ∧ Keeps [.a, .ppu, .pads] [.z, .n] st t) ∧
  (∀ (f : AluForm) (st : State), ∃ t, exec (.eor f) st = .next t ∧
    (∀ k, t.a.getLsbD k = (st.a.getLsbD k ^^ (fetchOperand f.source st).value.getLsbD k)) ∧ ShowsZN t.a t ∧
    ReadsOperand (.eor f) f.source st t ∧ Keeps [.a, .ppu, .pads] [.z, .n] st t) ∧
  (∀ (f : AluForm) (st : State), ∃ t, exec (.ora f) st = .next t ∧
    (∀ k, t.a.getLsbD k = (st.a.getLsbD k || (fetchOperand f.source st).value.getLsbD k)) ∧ ShowsZN t.a t ∧
    ReadsOperand (.ora f) f.source st t ∧ Keeps [.a, .ppu, .pads] [.z, .n] st t) ∧
  (∀ (n : Byte) (w : Addr),
    [AluForm.imm n, .zp0 n, .zpx n, .abs w, .abx w, .aby w, .izx n, .izy n].map (fun f => tableEntry (.and f)) =
      [(0x29, 2), (0x25, 3), (0x35, 4), (0x2D, 4), (0x3D, 4), (0x39, 4), (0x21, 6), (0x31, 5)] ∧
    [AluForm.imm n, .zp0 n, .zpx n, .abs w, .abx w, .aby w, .izx n, .izy n].map (fun f => tableEntry (.eor f)) =
      [(0x49, 2), (0x45, 3), (0x55, 4), (0x4D, 4), (0x5D, 4), (0x59, 4), (0x41, 6), (0x51, 5)] ∧
    [AluForm.imm n, .zp0 n, .zpx n, .abs w, .abx w, .aby w, .izx n, .izy n].map (fun f => tableEntry (.ora f)) =
      [(0x09, 2), (0x05, 3), (0x15, 4), (0x0D, 4), (0x1D, 4), (0x19, 4), (0x01, 6), (0x11, 5)])

/-- R134: BIT: Z from `A & m`, N and V from bits 7 and 6 of `m`, no register. -/
def Obligations.BitTest : Prop :=
  (∀ (f : BitForm) (st : State), ∃ t, exec (.bit f) st = .next t ∧
    (t.flag .z = true ↔ st.a &&& (fetchOperand f.source st).value = 0) ∧
    t.flag .n = (fetchOperand f.source st).value.getLsbD 7 ∧
    t.flag .v = (fetchOperand f.source st).value.getLsbD 6 ∧
    ReadsOperand (.bit f) f.source st t ∧ Keeps [.ppu, .pads] [.z, .n, .v] st t) ∧
  (∀ (n : Byte) (w : Addr), tableEntry (.bit (.zp0 n)) = (0x24, 3) ∧ tableEntry (.bit (.abs w)) = (0x2C, 4))

/-- R140: ADC in exact arithmetic: the sum modulo 256, C its ninth bit, V when the signed sum leaves the byte, and
the rule's own formula for V; D plays no part. -/
def Obligations.AddWithCarry : Prop :=
  (∀ (f : AluForm) (st : State), ∃ t, exec (.adc f) st = .next t ∧
    t.a.toNat = (st.a.toNat + (fetchOperand f.source st).value.toNat + (st.flag .c).toNat) % 256 ∧
    (t.flag .c = true ↔ 256 ≤ st.a.toNat + (fetchOperand f.source st).value.toNat + (st.flag .c).toNat) ∧
    (t.flag .v = true ↔
      st.a.toInt + (fetchOperand f.source st).value.toInt + (st.flag .c).toNat < -128 ∨
      127 < st.a.toInt + (fetchOperand f.source st).value.toInt + (st.flag .c).toNat) ∧
    t.flag .v = (~~~ (st.a ^^^ (fetchOperand f.source st).value) &&& (st.a ^^^ t.a)).getLsbD 7 ∧
    ShowsZN t.a t ∧ ReadsOperand (.adc f) f.source st t ∧ Keeps [.a, .ppu, .pads] [.c, .v, .z, .n] st t) ∧
  (∀ (n : Byte) (w : Addr),
    [AluForm.imm n, .zp0 n, .zpx n, .abs w, .abx w, .aby w, .izx n, .izy n].map (fun f => tableEntry (.adc f)) =
      [(0x69, 2), (0x65, 3), (0x75, 4), (0x6D, 4), (0x7D, 4), (0x79, 4), (0x61, 6), (0x71, 5)])

/-- R141: SBC in exact arithmetic: `a - m - (1 - C)` modulo 256, C when no borrow was needed, V when the signed
difference leaves the byte, and the rule's formula for V on the original operand. -/
def Obligations.SubtractWithBorrow : Prop :=
  (∀ (f : AluForm) (st : State), ∃ t, exec (.sbc f) st = .next t ∧
    (t.a.toNat : Int) =
      ((st.a.toNat : Int) - (fetchOperand f.source st).value.toNat - (1 - (st.flag .c).toNat)) % 256 ∧
    (t.flag .c = true ↔ (fetchOperand f.source st).value.toNat + (1 - (st.flag .c).toNat) ≤ st.a.toNat) ∧
    (t.flag .v = true ↔
      st.a.toInt - (fetchOperand f.source st).value.toInt - (1 - ((st.flag .c).toNat : Int)) < -128 ∨
      127 < st.a.toInt - (fetchOperand f.source st).value.toInt - (1 - ((st.flag .c).toNat : Int))) ∧
    t.flag .v = ((st.a ^^^ (fetchOperand f.source st).value) &&& (st.a ^^^ t.a)).getLsbD 7 ∧
    ShowsZN t.a t ∧ ReadsOperand (.sbc f) f.source st t ∧ Keeps [.a, .ppu, .pads] [.c, .v, .z, .n] st t) ∧
  (∀ (n : Byte) (w : Addr),
    [AluForm.imm n, .zp0 n, .zpx n, .abs w, .abx w, .aby w, .izx n, .izy n].map (fun f => tableEntry (.sbc f)) =
      [(0xE9, 2), (0xE5, 3), (0xF5, 4), (0xED, 4), (0xFD, 4), (0xF9, 4), (0xE1, 6), (0xF1, 5)])

/-- R142 to R145: the compares: C the unsigned order, Z equality, N the top bit of the 8-bit difference; no
register, no V. -/
def Obligations.Compares : Prop :=
  (∀ (f : AluForm) (st : State), ∃ t, exec (.cmp f) st = .next t ∧
    (t.flag .c = true ↔ (fetchOperand f.source st).value.toNat ≤ st.a.toNat) ∧
    (t.flag .z = true ↔ st.a = (fetchOperand f.source st).value) ∧
    (t.flag .n = true ↔ 128 ≤ (st.a.toNat + 256 - (fetchOperand f.source st).value.toNat) % 256) ∧
    ReadsOperand (.cmp f) f.source st t ∧ Keeps [.ppu, .pads] [.c, .z, .n] st t) ∧
  (∀ (f : CpxForm) (st : State), ∃ t, exec (.cpx f) st = .next t ∧
    (t.flag .c = true ↔ (fetchOperand f.source st).value.toNat ≤ st.x.toNat) ∧
    (t.flag .z = true ↔ st.x = (fetchOperand f.source st).value) ∧
    (t.flag .n = true ↔ 128 ≤ (st.x.toNat + 256 - (fetchOperand f.source st).value.toNat) % 256) ∧
    ReadsOperand (.cpx f) f.source st t ∧ Keeps [.ppu, .pads] [.c, .z, .n] st t) ∧
  (∀ (f : CpxForm) (st : State), ∃ t, exec (.cpy f) st = .next t ∧
    (t.flag .c = true ↔ (fetchOperand f.source st).value.toNat ≤ st.y.toNat) ∧
    (t.flag .z = true ↔ st.y = (fetchOperand f.source st).value) ∧
    (t.flag .n = true ↔ 128 ≤ (st.y.toNat + 256 - (fetchOperand f.source st).value.toNat) % 256) ∧
    ReadsOperand (.cpy f) f.source st t ∧ Keeps [.ppu, .pads] [.c, .z, .n] st t) ∧
  (∀ (n : Byte) (w : Addr),
    [AluForm.imm n, .zp0 n, .zpx n, .abs w, .abx w, .aby w, .izx n, .izy n].map (fun f => tableEntry (.cmp f)) =
      [(0xC9, 2), (0xC5, 3), (0xD5, 4), (0xCD, 4), (0xDD, 4), (0xD9, 4), (0xC1, 6), (0xD1, 5)] ∧
    [CpxForm.imm n, .zp0 n, .abs w].map (fun f => tableEntry (.cpx f)) =
      [(0xE0, 2), (0xE4, 3), (0xEC, 4)] ∧
    [CpxForm.imm n, .zp0 n, .abs w].map (fun f => tableEntry (.cpy f)) =
      [(0xC0, 2), (0xC4, 3), (0xCC, 4)])

/-- R146, R149, R53: INC and DEC: one read and one write of the effective address, Z and N from the byte written,
C and V untouched, the fixed base cycles. -/
def Obligations.IncrementMemory : Prop :=
  (∀ (f : IncForm) (st : State), ∃ t, exec (.inc f) st = .next t ∧
    StoresOne (resolve f.operand st).ea (busPeek (resolve f.operand st).ea st + 1)
      (busRead (resolve f.operand st).ea st).2 st t ∧
    ShowsZN (busPeek (resolve f.operand st).ea st + 1) t ∧ t.budget = st.launch.cycles (Instr.inc f).opcode ∧
    Keeps [.halted, .ppu, .apu, .pads] [.z, .n] st t) ∧
  (∀ (f : IncForm) (st : State), ∃ t, exec (.dec f) st = .next t ∧
    StoresOne (resolve f.operand st).ea (busPeek (resolve f.operand st).ea st - 1)
      (busRead (resolve f.operand st).ea st).2 st t ∧
    ShowsZN (busPeek (resolve f.operand st).ea st - 1) t ∧ t.budget = st.launch.cycles (Instr.dec f).opcode ∧
    Keeps [.halted, .ppu, .apu, .pads] [.z, .n] st t) ∧
  (∀ (n : Byte) (w : Addr),
    [IncForm.zp0 n, .zpx n, .abs w, .abx w].map (fun f => tableEntry (.inc f)) =
      [(0xE6, 5), (0xF6, 6), (0xEE, 6), (0xFE, 7)] ∧
    [IncForm.zp0 n, .zpx n, .abs w, .abx w].map (fun f => tableEntry (.dec f)) =
      [(0xC6, 5), (0xD6, 6), (0xCE, 6), (0xDE, 7)])

/-- R147, R148, R150, R151: INX, INY, DEX and DEY wrap modulo 256 and write only their register, Z and N;
the base count, whose default is 2 (log entry 5). -/
def Obligations.IncrementRegister : Prop :=
  (∀ st : State, ∃ t, exec .inx st = .next t ∧ t.x.toNat = (st.x.toNat + 1) % 256 ∧ ShowsZN t.x t ∧ Takes 0xE8 2 st t ∧
    Keeps [.x] [.z, .n] st t ∧ KeepsMemory st t) ∧
  (∀ st : State, ∃ t, exec .iny st = .next t ∧ t.y.toNat = (st.y.toNat + 1) % 256 ∧ ShowsZN t.y t ∧ Takes 0xC8 2 st t ∧
    Keeps [.y] [.z, .n] st t ∧ KeepsMemory st t) ∧
  (∀ st : State, ∃ t, exec .dex st = .next t ∧ t.x.toNat = (st.x.toNat + 255) % 256 ∧ ShowsZN t.x t ∧ Takes 0xCA 2 st t ∧
    Keeps [.x] [.z, .n] st t ∧ KeepsMemory st t) ∧
  (∀ st : State, ∃ t, exec .dey st = .next t ∧ t.y.toNat = (st.y.toNat + 255) % 256 ∧ ShowsZN t.y t ∧ Takes 0x88 2 st t ∧
    Keeps [.y] [.z, .n] st t ∧ KeepsMemory st t) ∧
  [Instr.inx, .iny, .dex, .dey].map encode = [[0xE8], [0xC8], [0xCA], [0x88]]

/-! ## Shifts -/

/-- R160 to R164 in mode ACC: A one place left or right, the bit shifted out in C, 0 or the prior C shifted in;
the base count, whose default is 2 (log entry 5). -/
def Obligations.ShiftAccumulator : Prop :=
  (∀ st : State, ∃ t, exec (.asl .acc) st = .next t ∧ t.a.toNat = 2 * st.a.toNat % 256 ∧
    t.flag .c = st.a.getLsbD 7 ∧ ShowsZN t.a t ∧ Takes 0x0A 2 st t ∧ Keeps [.a] [.c, .z, .n] st t ∧ KeepsMemory st t) ∧
  (∀ st : State, ∃ t, exec (.lsr .acc) st = .next t ∧ t.a.toNat = st.a.toNat / 2 ∧
    t.flag .c = st.a.getLsbD 0 ∧ ShowsZN t.a t ∧ Takes 0x4A 2 st t ∧ Keeps [.a] [.c, .z, .n] st t ∧ KeepsMemory st t) ∧
  (∀ st : State, ∃ t, exec (.rol .acc) st = .next t ∧
    t.a.toNat = 2 * st.a.toNat % 256 + (st.flag .c).toNat ∧
    t.flag .c = st.a.getLsbD 7 ∧ ShowsZN t.a t ∧ Takes 0x2A 2 st t ∧ Keeps [.a] [.c, .z, .n] st t ∧ KeepsMemory st t) ∧
  (∀ st : State, ∃ t, exec (.ror .acc) st = .next t ∧
    t.a.toNat = st.a.toNat / 2 + 128 * (st.flag .c).toNat ∧
    t.flag .c = st.a.getLsbD 0 ∧ ShowsZN t.a t ∧ Takes 0x6A 2 st t ∧ Keeps [.a] [.c, .z, .n] st t ∧ KeepsMemory st t) ∧
  [Instr.asl .acc, .lsr .acc, .rol .acc, .ror .acc].map encode = [[0x0A], [0x4A], [0x2A], [0x6A]]

/-- R160 to R164 on memory: the same four results, read from and written back to the effective address, for every
memory form. -/
def Obligations.ShiftMemory : Prop :=
  (∀ (f : ShiftForm) (m : MemOperand) (st : State), f.operand = some m →
    (∃ t r, exec (.asl f) st = .next t ∧ r.toNat = 2 * (busPeek (resolve m st).ea st).toNat % 256 ∧
      StoresOne (resolve m st).ea r (busRead (resolve m st).ea st).2 st t ∧
      t.flag .c = (busPeek (resolve m st).ea st).getLsbD 7 ∧ ShowsZN r t ∧
      t.budget = st.launch.cycles (Instr.asl f).opcode ∧ Keeps [.halted, .ppu, .apu, .pads] [.c, .z, .n] st t) ∧
    (∃ t r, exec (.lsr f) st = .next t ∧ r.toNat = (busPeek (resolve m st).ea st).toNat / 2 ∧
      StoresOne (resolve m st).ea r (busRead (resolve m st).ea st).2 st t ∧
      t.flag .c = (busPeek (resolve m st).ea st).getLsbD 0 ∧ ShowsZN r t ∧
      t.budget = st.launch.cycles (Instr.lsr f).opcode ∧ Keeps [.halted, .ppu, .apu, .pads] [.c, .z, .n] st t) ∧
    (∃ t r, exec (.rol f) st = .next t ∧
      r.toNat = 2 * (busPeek (resolve m st).ea st).toNat % 256 + (st.flag .c).toNat ∧
      StoresOne (resolve m st).ea r (busRead (resolve m st).ea st).2 st t ∧
      t.flag .c = (busPeek (resolve m st).ea st).getLsbD 7 ∧ ShowsZN r t ∧
      t.budget = st.launch.cycles (Instr.rol f).opcode ∧ Keeps [.halted, .ppu, .apu, .pads] [.c, .z, .n] st t) ∧
    (∃ t r, exec (.ror f) st = .next t ∧
      r.toNat = (busPeek (resolve m st).ea st).toNat / 2 + 128 * (st.flag .c).toNat ∧
      StoresOne (resolve m st).ea r (busRead (resolve m st).ea st).2 st t ∧
      t.flag .c = (busPeek (resolve m st).ea st).getLsbD 0 ∧ ShowsZN r t ∧
      t.budget = st.launch.cycles (Instr.ror f).opcode ∧ Keeps [.halted, .ppu, .apu, .pads] [.c, .z, .n] st t)) ∧
  (∀ (n : Byte) (w : Addr),
    [ShiftForm.zp0 n, .zpx n, .abs w, .abx w].map (fun f => tableEntry (.asl f)) =
      [(0x06, 5), (0x16, 6), (0x0E, 6), (0x1E, 7)] ∧
    [ShiftForm.zp0 n, .zpx n, .abs w, .abx w].map (fun f => tableEntry (.lsr f)) =
      [(0x46, 5), (0x56, 6), (0x4E, 6), (0x5E, 7)] ∧
    [ShiftForm.zp0 n, .zpx n, .abs w, .abx w].map (fun f => tableEntry (.rol f)) =
      [(0x26, 5), (0x36, 6), (0x2E, 6), (0x3E, 7)] ∧
    [ShiftForm.zp0 n, .zpx n, .abs w, .abx w].map (fun f => tableEntry (.ror f)) =
      [(0x66, 5), (0x76, 6), (0x6E, 6), (0x7E, 7)])

/-! ## Control flow -/

/-- R170, R84: JMP. In mode IND the high byte of the target is read without leaving the pointer's page, and the two
reads have the side effects of the addresses they are made at. -/
def Obligations.Jump : Prop :=
  (∀ (w : Addr) (st : State), ∃ t, exec (.jmp (.abs w)) st = .next t ∧ t.pc = w ∧ Takes 0x4C 3 st t ∧
    Keeps [.pc] [] st t ∧ KeepsMemory st t) ∧
  (∀ (w high : Addr) (st : State),
    high = (if w.toNat % 256 = 255 then w &&& 0xFF00 else w + 1) →
    ∃ t, exec (.jmp (.ind w)) st = .next t ∧
      t.pc = word (busRead high (busRead w st).2).1 (busRead w st).1 ∧ Takes 0x6C 5 st t ∧
      t.ppu = (busRead high (busRead w st).2).2.ppu ∧ t.pads = (busRead high (busRead w st).2).2.pads ∧
      Keeps [.pc, .ppu, .pads] [] st t ∧ KeepsMemory st t) ∧
  (∀ w : Addr, (Instr.jmp (.abs w)).opcode = 0x4C ∧ (Instr.jmp (.ind w)).opcode = 0x6C)

/-- R171: JSR pushes the address of its own third byte, high byte first, and jumps. -/
def Obligations.JumpToSubroutine : Prop :=
  ∀ (w : Addr) (st : State), ∃ t, exec (.jsr w) st = .next t ∧ t.pc = w ∧ t.s = st.s - 2 ∧ Takes 0x20 6 st t ∧
    StoresBytes [(0x0100 ||| zext16 st.s, hi8 (st.pc - 1)), (0x0100 ||| zext16 (st.s - 1), lo8 (st.pc - 1))] st t ∧
    Keeps [.pc, .s] [] st t ∧ encode (.jsr w) = [0x20, lo8 w, hi8 w]

/-- R172: RTS pulls PC low then high and adds 1. -/
def Obligations.ReturnFromSubroutine : Prop :=
  ∀ st : State, ∃ t, exec .rts st = .next t ∧
    t.pc = word (busPeek (0x0100 ||| zext16 (st.s + 2)) st) (busPeek (0x0100 ||| zext16 (st.s + 1)) st) + 1 ∧
    t.s = st.s + 2 ∧ Takes 0x60 6 st t ∧ Keeps [.pc, .s] [] st t ∧ KeepsMemory st t ∧ encode .rts = [0x60]

/-- R173, R216: BRK pushes PC + 1 and P with B, I and U set, sets B and I, and loads PC from the IRQ vector,
whatever I holds. -/
def Obligations.Break : Prop :=
  ∀ st : State, ∃ t m, exec .brk st = .next t ∧
    t.pc = word (busPeek 0xFFFF st) (busPeek 0xFFFE st) ∧ t.s = st.s - 3 ∧ Takes 0x00 7 st t ∧
    t.flag .b = true ∧ t.flag .i = true ∧
    (∀ f, flagOf m f = (f == .b || f == .i || f == .u || st.flag f)) ∧
    StoresBytes [(0x0100 ||| zext16 st.s, hi8 (st.pc + 1)), (0x0100 ||| zext16 (st.s - 1), lo8 (st.pc + 1)),
      (0x0100 ||| zext16 (st.s - 2), m)] st t ∧
    Keeps [.pc, .s] [.b, .i] st t ∧ encode .brk = [0x00]

/-- R174: RTI pulls P (B kept, U forced to 1), then PC low, then PC high, with no adjustment. -/
def Obligations.ReturnFromInterrupt : Prop :=
  ∀ st : State, ∃ t, exec .rti st = .next t ∧
    t.p = (busPeek (0x0100 ||| zext16 (st.s + 1)) st &&& 0xCF) ||| (st.p &&& 0x10) ||| 0x20 ∧
    t.pc = word (busPeek (0x0100 ||| zext16 (st.s + 3)) st) (busPeek (0x0100 ||| zext16 (st.s + 2)) st) ∧
    t.s = st.s + 3 ∧ Takes 0x40 6 st t ∧ t.flag .b = st.flag .b ∧ t.flag .u = true ∧
    Keeps [.pc, .s] [.c, .z, .i, .d, .v, .n, .u] st t ∧ KeepsMemory st t ∧ encode .rti = [0x40]

/-- R175 to R183: the eight branches: the condition of each, the target modulo 65536, the base count,
1 cycle more when taken and another when the target lies in another page; no flag, no memory. -/
def Obligations.Branches : Prop :=
  (∀ (offset : Byte) (st : State) (i : Instr) (taken : Bool),
    (i, taken) ∈ [(Instr.bcc offset, !st.flag .c), (.bcs offset, st.flag .c), (.beq offset, st.flag .z),
      (.bmi offset, st.flag .n), (.bne offset, !st.flag .z), (.bpl offset, !st.flag .n),
      (.bvc offset, !st.flag .v), (.bvs offset, st.flag .v)] →
    ∃ t, exec i st = .next t ∧
      (taken = true →
        t.pc = BitVec.ofInt 16 (st.pc.toNat + offset.toInt) ∧
        t.budget = st.launch.cycles i.opcode + if t.pc.toNat / 256 = st.pc.toNat / 256 then 1 else 2) ∧
      (taken = false → t.pc = st.pc ∧ t.budget = st.launch.cycles i.opcode) ∧
      Launch.default.cycles i.opcode = 2 ∧
      Keeps [.pc] [] st t ∧ KeepsMemory st t) ∧
  ∀ n : Byte,
    [Instr.bcc n, .bcs n, .beq n, .bmi n, .bne n, .bpl n, .bvc n, .bvs n].map encode =
      [[0x90, n], [0xB0, n], [0xF0, n], [0x30, n], [0xD0, n], [0x10, n], [0x50, n], [0x70, n]]

/-! ## Flags, NOP, XXX -/

/-- R190 to R196: each flag instruction writes its one flag and nothing else but the budget (the default
count is 2, log entry 5). -/
def Obligations.FlagInstructions : Prop :=
  (∀ (st : State) (i : Instr) (f : Flag) (b : Bool),
    (i, f, b) ∈ [(Instr.clc, Flag.c, false), (.cld, .d, false), (.cli, .i, false), (.clv, .v, false),
      (.sec, .c, true), (.sed, .d, true), (.sei, .i, true)] →
    ∃ t, exec i st = .next t ∧ t.flag f = b ∧ Takes i.opcode 2 st t ∧ Keeps [] [f] st t ∧ KeepsMemory st t) ∧
  [Instr.clc, .cld, .cli, .clv, .sec, .sed, .sei].map encode =
    [[0x18], [0xD8], [0x58], [0xB8], [0x38], [0xF8], [0x78]]

/-- R198, R199: NOP, and XXX of any byte and any mode, change nothing but the budget, which is the base count the
launch gives the byte, and no byte is read at the effective address; but an XXX of mode IND reads its pointer, with
the side effects of the two reads. Which bytes a slot takes is the launch parameter `xxx_mode` (log entry 6). -/
def Obligations.NoOperations : Prop :=
  (∀ st : State, exec .nop st = .next (st.setBudget (st.launch.cycles 0xEA))) ∧
  encode .nop = [0xEA] ∧ tableEntry .nop = (0xEA, 2) ∧
  (∀ (op : Byte) (f : XxxForm) (st : State), f.mode ≠ .ind →
    exec (.xxx op f) st = .next (st.setBudget (st.launch.cycles op))) ∧
  (∀ (op : Byte) (w high : Addr) (st : State),
    high = (if w.toNat % 256 = 255 then w &&& 0xFF00 else w + 1) →
    exec (.xxx op (.ind w)) st =
      .next ((busRead high (busRead w st).2).2.setBudget (st.launch.cycles op)))

/-! ## Round trips -/

/-- R171, R172, R184: an RTS right after a JSR returns to the instruction after the JSR with S, P and the registers
as they were. -/
def Obligations.SubroutineRoundTrip : Prop :=
  ∀ (w : Addr) (st : State), ∃ u t, exec (.jsr w) st = .next u ∧ exec .rts u = .next t ∧
    Keeps [] [] st t ∧
    StoresBytes [(0x0100 ||| zext16 st.s, hi8 (st.pc - 1)), (0x0100 ||| zext16 (st.s - 1), lo8 (st.pc - 1))] st t

/-- R213, R174, R223: RTI right after an NMI entry, an IRQ entry or a BRK resumes at the pushed PC with every flag
as it was but I, which is 1, and B, which keeps the value entry gave it; S, A, X and Y are as they were. -/
def Obligations.TrapRoundTrip : Prop :=
  (∀ (st : State) (vector : Addr), vector = 0xFFFA ∨ vector = 0xFFFE → st.flag .u = true →
    ∃ t, exec .rti (trapEntry false vector st) = .next t ∧
      t.flag .i = true ∧ t.flag .b = false ∧ Keeps [] [.i, .b] st t) ∧
  (∀ st : State, st.flag .u = true → ∃ u t, exec .brk st = .next u ∧ exec .rti u = .next t ∧
    t.pc = st.pc + 1 ∧ t.flag .i = true ∧ t.flag .b = true ∧ Keeps [.pc] [.i, .b] st t)

/-- R163, R164: "Nine ROLs restore the operand and C", and a ROR undoes a ROL. -/
def Obligations.RotateRoundTrips : Prop :=
  (∀ s : Nat → State, (∀ k, k < 9 → exec (.rol .acc) (s k) = .next (s (k + 1))) →
    (s 9).a = (s 0).a ∧ (s 9).flag .c = (s 0).flag .c) ∧
  (∀ st : State, ∃ u t, exec (.rol .acc) st = .next u ∧ exec (.ror .acc) u = .next t ∧
    t.a = st.a ∧ t.flag .c = st.flag .c)

/-! ## Interrupts and the cycle engine -/

/-- R211, R213, R214, R221(a): at an un-halted boundary with an NMI pending, whatever I holds and whether or not an
IRQ is pending, the cycle services the NMI: three bytes on the stack, B cleared and I set, PC from `0xFFFA`, the
latch cleared, 8 cycles of which one is gone; the IRQ latch, A, X, Y, memory and the devices stay. -/
def Obligations.NmiService : Prop :=
  ∀ st : State, st.halted = false → st.budget = 0 → st.nmiPending = true →
    ∃ t m, cpuCycle st = .next t ∧ t.pc = word (busPeek 0xFFFB st) (busPeek 0xFFFA st) ∧ t.s = st.s - 3 ∧
      t.nmiPending = false ∧ t.irqPending = st.irqPending ∧ t.didNmi = true ∧ t.didIrq = false ∧ t.budget = 7 ∧
      t.cycleCount = st.cycleCount + 1 ∧
      (∀ f, t.flag f = (f != .b && (f == .i || st.flag f))) ∧
      (∀ f, flagOf m f = (f != .b && (f == .i || f == .u || st.flag f))) ∧
      StoresBytes [(0x0100 ||| zext16 st.s, hi8 st.pc), (0x0100 ||| zext16 (st.s - 1), lo8 st.pc),
        (0x0100 ||| zext16 (st.s - 2), m)] st t ∧
      t.a = st.a ∧ t.x = st.x ∧ t.y = st.y ∧ t.halted = false ∧ t.launch = st.launch ∧ SameDevices st t

/-- R211, R213, R215: at an un-halted boundary with an IRQ pending, no NMI pending and I clear, the cycle services
the IRQ, through `0xFFFE`, in 7 cycles. -/
def Obligations.IrqService : Prop :=
  ∀ st : State, st.halted = false → st.budget = 0 → st.nmiPending = false → st.irqPending = true →
    st.flag .i = false →
    ∃ t m, cpuCycle st = .next t ∧ t.pc = word (busPeek 0xFFFF st) (busPeek 0xFFFE st) ∧ t.s = st.s - 3 ∧
      t.nmiPending = false ∧ t.irqPending = false ∧ t.didNmi = false ∧ t.didIrq = true ∧ t.budget = 6 ∧
      t.cycleCount = st.cycleCount + 1 ∧
      (∀ f, t.flag f = (f != .b && (f == .i || st.flag f))) ∧
      (∀ f, flagOf m f = (f != .b && (f == .i || f == .u || st.flag f))) ∧
      StoresBytes [(0x0100 ||| zext16 st.s, hi8 st.pc), (0x0100 ||| zext16 (st.s - 1), lo8 st.pc),
        (0x0100 ||| zext16 (st.s - 2), m)] st t ∧
      t.a = st.a ∧ t.x = st.x ∧ t.y = st.y ∧ t.halted = false ∧ t.launch = st.launch ∧ SameDevices st t

/-- R220, R211, R236: a halted CPU cycle changes nothing; a cycle inside a budget only counts; and at a boundary with
no NMI pending and no IRQ that I lets through, the cycle is one instruction. -/
def Obligations.CycleOrder : Prop :=
  ∀ st : State,
    (st.halted = true → cpuCycle st = .next st) ∧
    (st.halted = false → 0 < st.budget →
      cpuCycle st = .next { st with cycleCount := st.cycleCount + 1, budget := st.budget - 1 }) ∧
    (st.halted = false → st.budget = 0 → st.nmiPending = false → (st.irqPending = false ∨ st.flag .i = true) →
      cpuCycle st = mapNext (fun t => { t with cycleCount := t.cycleCount + 1, budget := t.budget - 1 })
        (exec (fetchInstr { st with didNmi := false, didIrq := false }).1
          (fetchInstr { st with didNmi := false, didIrq := false }).2))

/-- R421, R32, R423, R424: `reset()` and `reset(pc)` from any state whatever: every value the rules give, and
everything they leave alone. -/
def Obligations.ResetProcedure : Prop :=
  ∀ (pc : Option Addr) (st t : State), t = consoleReset pc st →
    t.a = 0 ∧ t.x = 0 ∧ t.y = 0 ∧ t.s = 0xFD ∧ t.p = 0x24 ∧
    t.pc = pc.getD (word (busPeek 0xFFFD st) (busPeek 0xFFFC st)) ∧
    t.nmiPending = false ∧ t.irqPending = false ∧ t.halted = false ∧
    t.budget = st.launch.resetBudget ∧ t.cycleCount = 0 ∧ t.tickCount = 0 ∧
    t.ppu = { nt := st.ppu.nt, pal := st.ppu.pal, oam := st.ppu.oam, framebuffer := st.ppu.framebuffer,
              frameCount := st.ppu.frameCount } ∧
    t.apu = {} ∧ t.ram = st.ram ∧ t.prgRam = st.prgRam ∧ t.pads = st.pads ∧ t.launch = st.launch ∧
    t.hostCalls = st.hostCalls

/-! ## OAM DMA -/

/-- R350, R383: a write of `0x4014` halts the CPU, leaves the page in `dma_page`, starts the 1539-dot countdown and
copies the 256 bytes of the page into OAM from index 0, for every page that holds no device register; `oam_addr`,
the registers, the flags and every byte of CPU memory stay, for every page at all. -/
def Obligations.OamDmaCopies : Prop :=
  ∀ (b : Byte) (st t : State), t = busWrite 0x4014 b st →
    t.halted = true ∧ t.apu = { st.apu with dmaPage := b } ∧ t.ppu.dmaActive = true ∧ t.ppu.dmaCounter = 1539 ∧
    t.ppu.oamAddr = st.ppu.oamAddr ∧ Keeps [.halted, .apu, .ppu, .pads] [] st t ∧ KeepsMemory st t ∧
    (b.toNat < 0x20 ∨ 0x41 ≤ b.toNat →
      t.pads = st.pads ∧ t.ppu = { st.ppu with oam := t.ppu.oam, dmaActive := true, dmaCounter := 1539 } ∧
      ∀ i, i < 256 → t.ppu.oam.read i = busPeek (word b (BitVec.ofNat 8 i)) st)

/-- R350, R351, R360, R441, R54: from a halted state just after the tick that started a DMA, with no host call, the
CPU stays halted and its registers, flags, budget, cycle count and all of memory stay for 1539 ticks, which hold
513 CPU cycles, and the next tick releases it. -/
def Obligations.DmaStallsTheCpu : Prop :=
  ∀ st : State, st.halted = true → st.ppu.dmaActive = true → st.ppu.dmaCounter = 1539 → st.hostCalls = [] →
    st.tickCount % 3 = (st.launch.clockPhase.val + 1) % 3 →
    (∀ n, n ≤ 1540 → ∃ t, Host.Core.run Sys2Proof.core n st = .next t ∧ t.tickCount = st.tickCount + n ∧
      t.halted = decide (n < 1540) ∧ t.a = st.a ∧ t.x = st.x ∧ t.y = st.y ∧ t.s = st.s ∧ t.p = st.p ∧
      t.pc = st.pc ∧ t.budget = st.budget ∧ t.cycleCount = st.cycleCount ∧ KeepsMemory st t) ∧
    ((List.range 1540).filter (fun n => decide ((st.tickCount + n) % 3 = st.launch.clockPhase.val))).length = 513

/-! ## The PPU -/

/-- R303: PPUSTATUS. The value has the three status bits and the low five bits of the last register write; the read
clears VBlank and the write latch and nothing else; a peek gives the same value. -/
def Obligations.PpuStatusRead : Prop :=
  ∀ (addr : Addr) (st : State), 0x2000 ≤ addr.toNat → addr.toNat < 0x4000 → addr.toNat % 8 = 2 →
    (busRead addr st).1 = (st.ppu.status &&& 0xE0) ||| (st.ppu.lastWrite &&& 0x1F) ∧
    busPeek addr st = (busRead addr st).1 ∧
    (busRead addr st).2 = st.setPpu
      { st.ppu with status := st.ppu.status &&& 0x7F, w := false }

/-- R306, R308, R300: the two write-twice registers share the latch `w`: what each half writes in V, T and fine X,
field by field. -/
def Obligations.ScrollAndAddressLatch : Prop :=
  ∀ (c : Cartridge) (p : Ppu) (b : Byte),
    (p.w = false → p.writeReg c 6 b =
      { p with lastWrite := b, w := true, t := (p.t &&& 0x00FF) ||| ((b &&& 0x3F).setWidth 15 <<< 8) }) ∧
    (p.w = true → p.writeReg c 6 b =
      { p with
        lastWrite := b, w := false, t := (p.t &&& 0x7F00) ||| b.setWidth 15
        v := (p.t &&& 0x7F00) ||| b.setWidth 15 }) ∧
    (p.w = false →
      (p.writeReg c 5 b).w = true ∧ (coarseX (p.writeReg c 5 b).t).toNat = b.toNat / 8 ∧
      (p.writeReg c 5 b).fineX.toNat = b.toNat % 8 ∧ (p.writeReg c 5 b).v = p.v ∧
      coarseY (p.writeReg c 5 b).t = coarseY p.t ∧ fineY (p.writeReg c 5 b).t = fineY p.t ∧
      nametableX (p.writeReg c 5 b).t = nametableX p.t ∧ nametableY (p.writeReg c 5 b).t = nametableY p.t) ∧
    (p.w = true →
      (p.writeReg c 5 b).w = false ∧ (coarseY (p.writeReg c 5 b).t).toNat = b.toNat / 8 ∧
      (fineY (p.writeReg c 5 b).t).toNat = b.toNat % 8 ∧ (p.writeReg c 5 b).v = p.v ∧
      (p.writeReg c 5 b).fineX = p.fineX ∧ coarseX (p.writeReg c 5 b).t = coarseX p.t ∧
      nametableX (p.writeReg c 5 b).t = nametableX p.t ∧ nametableY (p.writeReg c 5 b).t = nametableY p.t)

/-- R307, R312: PPUDATA. The buffered read below `0x3F00`, the direct palette read, and the write, each with V
moved on by 1 or 32 modulo 2^15. -/
def Obligations.PpuDataAccess : Prop :=
  ∀ (c : Cartridge) (p : Ppu) (b : Byte) (inc : Nat),
    inc = (if p.ctrl.getLsbD 2 then 32 else 1) →
    (p.readReg c 7).1 = (if p.v.toNat % 16384 < 0x3F00 then p.dataBuffer else p.busRead c (p.v.setWidth 14)) ∧
    (p.readReg c 7).2 =
      { p with
        dataBuffer := p.busRead c (p.v.setWidth 14), v := BitVec.ofNat 15 (p.v.toNat + inc) } ∧
    p.writeReg c 7 b =
      { (Ppu.busWrite c { p with lastWrite := b } (p.v.setWidth 14) b) with
        v := BitVec.ofNat 15 (p.v.toNat + inc) }

/-- R314: palette RAM: the four alias pairs for writes and reads, both ways, the greyscale mask on reads, the repeat
every 32 bytes, and that a write changes only the entry it names. -/
def Obligations.PaletteAliases : Prop :=
  ∀ (c : Cartridge) (p : Ppu) (a a' : BitVec 14) (b : Byte),
    0x3F00 ≤ a.toNat → 0x3F00 ≤ a'.toNat →
    (Ppu.busWrite c p a b).busRead c a = b &&& (if p.mask.getLsbD 0 then 0x30 else 0xFF) ∧
    (a'.toNat % 32 % 16 = a.toNat % 32 % 16 ∧ a.toNat % 4 = 0 ∨ a'.toNat % 32 = a.toNat % 32 →
      (Ppu.busWrite c p a b).busRead c a' = b &&& (if p.mask.getLsbD 0 then 0x30 else 0xFF)) ∧
    (¬ (a'.toNat % 32 % 16 = a.toNat % 32 % 16 ∧ a.toNat % 4 = 0 ∨ a'.toNat % 32 = a.toNat % 32) →
      (Ppu.busWrite c p a b).busRead c a' = p.busRead c a')

/-- R320, R321: from the first dot of an even frame, 89342 dots later the PPU is at the first dot of an odd one, and
from there 89341 dots later at the first dot of an even one, whatever it renders. -/
def Obligations.FrameLength : Prop :=
  ∀ (c : Cartridge) (p : Ppu), p.dot = 0 → p.scanline = 0 →
    (p.oddFrame = false →
      ((Ppu.tick c)^[89342] p).dot = 0 ∧ ((Ppu.tick c)^[89342] p).scanline = 0 ∧
      ((Ppu.tick c)^[89342] p).oddFrame = true) ∧
    (p.oddFrame = true →
      ((Ppu.tick c)^[89341] p).dot = 0 ∧ ((Ppu.tick c)^[89341] p).scanline = 0 ∧
      ((Ppu.tick c)^[89341] p).oddFrame = false)

/-- R322, R323, R218: VBlank is set, the frame counted and, with PPUCTRL bit 7 set, the NMI latched on the dot
(241, 1), and the latch is set by no other dot; the three status bits are cleared on the dot (261, 1). -/
def Obligations.VBlankAndNmi : Prop :=
  ∀ st : State,
    (ppuTick st).nmiPending =
      (st.nmiPending || (st.ppu.scanline == 241 && st.ppu.dot == 1 && st.ppu.ctrl.getLsbD 7)) ∧
    (ppuTick st).ppu.frameCount =
      st.ppu.frameCount + (if st.ppu.scanline = 241 ∧ st.ppu.dot = 1 then 1 else 0) ∧
    (st.ppu.scanline = 241 → st.ppu.dot = 1 → (ppuTick st).ppu.status = st.ppu.status ||| 0x80) ∧
    (st.ppu.scanline = 261 → st.ppu.dot = 1 → (ppuTick st).ppu.status = st.ppu.status &&& 0x1F)

/-- R335: the sprite buffer for a line holds the first eight OAM entries, in order, whose row on that line is within
the sprite height, and the overflow flag is set exactly when there are eight. -/
def Obligations.SpriteEvaluation : Prop :=
  ∀ (c : Cartridge) (p : Ppu) (line : Nat),
    (p.evaluateSprites c line).sprites =
      (((List.range 64).filter (fun n =>
          decide (0 ≤ ((p.oam.read (4 * n)).toNat : Int) - line + 8) &&
          decide (((p.oam.read (4 * n)).toNat : Int) - line + 8 < if p.ctrl.getLsbD 5 then 16 else 8))).take 8).map
        (fun n => p.spriteEntry c n (((p.oam.read (4 * n)).toNat : Int) - line + 8).toNat) ∧
    (p.evaluateSprites c line).status =
      (if (p.evaluateSprites c line).sprites.length = 8 then p.status ||| 0x20 else p.status)

end
end

