-- ==== Sys2Proof/Laws/Memory.lean ====
section
/-! SUPPORT. The laws of memories and of the framebuffer: read after write, and that writing keeps the
canonical form and the address bound. None of the read laws needs the canonical form. -/

namespace Sys2Proof.Machine

@[simp] theorem Memory.read_nil (k : Nat) : Memory.read [] k = Memory.unlisted := rfl

/-- A read after a write to the same place gives the value written. -/
@[simp] theorem Memory.read_write_same (m : Memory) (k : Nat) (b : Byte) : (m.write k b).read k = b := by
  induction m with
  | nil =>
    unfold Memory.write
    split <;> simp_all [Memory.read]
  | cons c rest ih =>
    obtain ⟨j, v⟩ := c
    unfold Memory.write
    split
    · split
      · exact ih
      · simp [Memory.read]
    · split
      · simp [Memory.read]
      · simp [Memory.read, *]

/-- A write leaves every other place alone. -/
theorem Memory.read_write_other (m : Memory) {k l : Nat} (b : Byte) (h : k ≠ l) :
    (m.write k b).read l = m.read l := by
  induction m with
  | nil =>
    unfold Memory.write
    split <;> simp [Memory.read, h]
  | cons c rest ih =>
    obtain ⟨j, v⟩ := c
    unfold Memory.write
    split
    · rename_i hj
      subst hj
      split <;> simp [Memory.read, h, ih]
    · split
      · simp [Memory.read, h]
      · simp [Memory.read, ih]

theorem Memory.read_write (m : Memory) (k l : Nat) (b : Byte) :
    (m.write k b).read l = if k = l then b else m.read l := by
  split
  · subst_vars; simp
  · exact m.read_write_other b (by assumption)

/-- Every cell after a write was there before or is the one written. -/
theorem Memory.mem_write {m : Memory} {k : Nat} {b : Byte} {c : Host.Cell} (h : c ∈ m.write k b) :
    c ∈ m ∨ c = (k, b) ∧ b ≠ Memory.unlisted := by
  induction m with
  | nil =>
    unfold Memory.write at h
    split at h <;> simp_all
  | cons d rest ih =>
    obtain ⟨j, v⟩ := d
    unfold Memory.write at h
    split at h
    · split at h
      · rcases ih h with h | h <;> simp [h]
      · rcases List.mem_cons.1 h with h | h <;> simp_all
    · split at h
      · rcases List.mem_cons.1 h with h | h <;> simp_all
      · rcases List.mem_cons.1 h with h | h
        · simp [h]
        · rcases ih h with h | h <;> simp [h]

/-- Every memory operation keeps the canonical form. -/
theorem Memory.wf_write {m : Memory} (h : m.wf) (k : Nat) (b : Byte) : (m.write k b).wf := by
  refine ⟨?_, ?_⟩
  · have hp := h.1
    clear h
    induction m with
    | nil =>
      unfold Memory.write
      split <;> simp
    | cons d rest ih =>
      obtain ⟨j, v⟩ := d
      rw [List.pairwise_cons] at hp
      unfold Memory.write
      split
      · split
        · exact ih hp.2
        · exact List.pairwise_cons.2 ⟨fun c hc => by simpa [*] using hp.1 c hc, hp.2⟩
      · rename_i hj
        split
        · rename_i hk
          refine List.pairwise_cons.2 ⟨fun c hc => ?_, List.pairwise_cons.2 hp⟩
          rcases List.mem_cons.1 hc with hc | hc
          · simpa [hc] using hk.1
          · have := hp.1 c hc
            simp at this ⊢
            omega
        · rename_i hk
          refine List.pairwise_cons.2 ⟨fun c hc => ?_, ih hp.2⟩
          rcases Memory.mem_write hc with hc | hc
          · exact hp.1 c hc
          · have : ¬ k < j := fun hlt => hk ⟨hlt, hc.2⟩
            rw [hc.1]
            show j < k
            omega
  · intro c hc
    rcases Memory.mem_write hc with hc | hc
    · exact h.2 c hc
    · rw [hc.1]; exact hc.2

theorem Memory.sized_write {m : Memory} {n : Nat} (h : m.Sized n) {k : Nat} (hk : k < n) (b : Byte) :
    (m.write k b).Sized n := by
  refine ⟨Memory.wf_write h.1 k b, fun c hc => ?_⟩
  rcases Memory.mem_write hc with hc | hc
  · exact h.2 c hc
  · simpa [hc.1] using hk

theorem Memory.wf_nil : Memory.wf [] := ⟨List.Pairwise.nil, fun _ h => nomatch h⟩
theorem Memory.sized_nil (n : Nat) : Memory.Sized [] n := ⟨Memory.wf_nil, fun _ h => nomatch h⟩

/-! ## The framebuffer -/

/-- R340: a written pixel shows the value written, and the other pixels what they showed. -/
theorem Frame.get_put (l : List (Nat × BitVec 24)) (k j : Nat) (rgb : BitVec 24) :
    Frame.get (Frame.put l k rgb) j = if k = j then rgb else Frame.get l j := by
  induction l with
  | nil => simp [Frame.put, Frame.get]
  | cons c rest ih =>
    obtain ⟨i, v⟩ := c
    unfold Frame.put
    split
    · rename_i h
      subst h
      by_cases hj : i = j <;> simp [Frame.get, hj]
    · split
      · by_cases hj : k = j <;> simp [Frame.get, hj]
      · by_cases hi : i = j
        · have : k ≠ j := by omega
          simp [Frame.get, hi, this]
        · simp [Frame.get, hi, ih]

theorem Frame.mem_put {l : List (Nat × BitVec 24)} {k : Nat} {rgb : BitVec 24} {c : Nat × BitVec 24}
    (h : c ∈ Frame.put l k rgb) : c ∈ l ∨ c = (k, rgb) := by
  induction l with
  | nil => simp_all [Frame.put]
  | cons d rest ih =>
    obtain ⟨i, v⟩ := d
    unfold Frame.put at h
    split at h
    · rcases List.mem_cons.1 h with h | h <;> simp [h]
    · split at h
      · rcases List.mem_cons.1 h with h | h
        · simp [h]
        · exact .inl h
      · rcases List.mem_cons.1 h with h | h
        · simp [h]
        · rcases ih h with h | h <;> simp [h]

theorem Frame.sorted_put {l : List (Nat × BitVec 24)} (h : List.Pairwise (fun x y => x.1 < y.1) l) (k : Nat)
    (rgb : BitVec 24) : List.Pairwise (fun x y => x.1 < y.1) (Frame.put l k rgb) := by
  induction l with
  | nil => simp [Frame.put]
  | cons d rest ih =>
    obtain ⟨i, v⟩ := d
    rw [List.pairwise_cons] at h
    unfold Frame.put
    split
    · rename_i hi
      exact List.pairwise_cons.2 ⟨fun c hc => by simpa [hi] using h.1 c hc, h.2⟩
    · split
      · rename_i hk
        refine List.pairwise_cons.2 ⟨fun c hc => ?_, List.pairwise_cons.2 h⟩
        rcases List.mem_cons.1 hc with hc | hc
        · simpa [hc] using hk
        · have := h.1 c hc
          simp at this ⊢
          omega
      · refine List.pairwise_cons.2 ⟨fun c hc => ?_, ih h.2⟩
        rcases Frame.mem_put hc with hc | hc
        · exact h.1 c hc
        · simp [hc]
          omega

end Sys2Proof.Machine
end

