-- ==== Sys2Proof/Laws/Apu.lean ====
section
/-! SUPPORT. The APU keeps `Apu.Ok`: the frame step within its sequence, at most 2048 samples, an LFSR that is
never 0. -/

namespace Sys2Proof.Machine

/-- R392: the shift is one to one on the LFSR's bits, so a value that is not 0 stays so. -/
theorem lfsrShift_ne_zero (mode : Bool) {r : BitVec 15} (h : r ≠ 0) : lfsrShift mode r ≠ 0 := by
  intro hz
  apply h
  have hb : ∀ j, (lfsrShift mode r).getLsbD j = false := by intro j; rw [hz]; simp
  have hi : ∀ j, 1 ≤ j → r.getLsbD j = false := by
    intro j hj
    by_cases hj15 : j < 15
    · have := hb (j - 1)
      simp only [lfsrShift, BitVec.getLsbD_or, Bool.or_eq_false_iff] at this
      have := this.1
      rw [BitVec.getLsbD_ushiftRight] at this
      rwa [show 1 + (j - 1) = j by omega] at this
    · exact BitVec.getLsbD_of_ge r j (by omega)
  have h0 : r.getLsbD 0 = false := by
    have h14 := hb 14
    have h1 := hi 1 (by omega)
    have h6 := hi 6 (by omega)
    simp only [lfsrShift, BitVec.getLsbD_or, h1, h6] at h14
    cases mode <;> simpa using h14
  apply BitVec.eq_of_getLsbD_eq
  intro j _
  by_cases hj : j = 0
  · subst hj; simpa using h0
  · simpa using hi j (by omega)

theorem length_pushSample (l : List Byte) (b : Byte) : (pushSample l b).length ≤ Config.audioBufferSize := by
  simp [pushSample, Config.audioBufferSize]
  omega

/-- `u'` differs from `u` in no bounded field. -/
structure Apu.Alike (u u' : Apu) : Prop where
  frameStep : u'.frameStep = u.frameStep
  fiveStep : u'.fiveStep = u.fiveStep
  samples : u'.samples = u.samples
  lfsr : u'.noise.lfsr = u.noise.lfsr

theorem Apu.Ok.of_alike {u u' : Apu} (h : u.Ok) (e : Apu.Alike u u') : u'.Ok := by
  constructor
  · rw [e.frameStep, e.fiveStep]; exact h.frameStep_lt
  · rw [e.samples]; exact h.samples_le
  · rw [e.lfsr]; exact h.lfsr_ne

theorem Apu.Ok.writeReg {u : Apu} (h : u.Ok) (l : Launch) (r : Nat) (b : Byte) : (u.writeReg l r b).Ok := by
  unfold Apu.writeReg
  split <;> first | exact h | exact h.of_alike ⟨rfl, rfl, rfl, rfl⟩

theorem Apu.Ok.setFrameMode {u : Apu} (h : u.Ok) (m i : Bool) : (u.setFrameMode m i).Ok :=
  { h with frameStep_lt := by cases m <;> simp [Apu.setFrameMode] }

theorem Noise.timerTick_lfsr {c : Noise} (h : c.lfsr ≠ 0) (l : Launch) : (c.timerTick l).lfsr ≠ 0 := by
  unfold Noise.timerTick
  split
  · exact lfsrShift_ne_zero _ h
  · exact h

theorem Apu.Ok.timerTicks {u : Apu} (h : u.Ok) (l : Launch) : (u.timerTicks l).Ok := by
  unfold Apu.timerTicks
  split
  · exact { h with lfsr_ne := Noise.timerTick_lfsr h.lfsr_ne l }
  · exact h.of_alike ⟨rfl, rfl, rfl, rfl⟩

theorem Apu.runFrameStep_alike (u : Apu) (k : Nat) : Apu.Alike u (u.runFrameStep k) := by
  unfold Apu.runFrameStep
  split <;> exact ⟨rfl, rfl, rfl, rfl⟩

theorem Apu.Ok.frameCounterTick {u : Apu} (h : u.Ok) (l : Launch) : (u.frameCounterTick l).Ok := by
  have hq : Apu.Ok { u with frameCycle := u.frameCycle + 1 } := h.of_alike ⟨rfl, rfl, rfl, rfl⟩
  have e := Apu.runFrameStep_alike { u with frameCycle := u.frameCycle + 1 } u.frameStep
  have hr := hq.of_alike e
  have hlt := h.frameStep_lt
  unfold Apu.frameCounterTick
  simp only
  by_cases hd : u.frameStepDue l = true
  · rw [if_pos hd]
    by_cases hn : u.frameStep + 1 = (if u.fiveStep then 5 else 4)
    · rw [if_pos hn]
      exact { samples_le := hr.samples_le, lfsr_ne := hr.lfsr_ne, frameStep_lt := by simp only; split <;> omega }
    · rw [if_neg hn]
      refine { samples_le := hr.samples_le, lfsr_ne := hr.lfsr_ne, frameStep_lt := ?_ }
      have e5 : (Apu.runFrameStep { u with frameCycle := u.frameCycle + 1 } u.frameStep).fiveStep = u.fiveStep :=
        e.fiveStep
      simp only [e5]
      omega
  · rw [if_neg hd]
    exact hq

theorem Apu.Ok.sampleTick {u : Apu} (h : u.Ok) (l : Launch) : (u.sampleTick l).Ok := by
  unfold Apu.sampleTick
  simp only
  split
  · exact { h with samples_le := by simpa only using length_pushSample u.samples (u.sample l) }
  · exact h.of_alike ⟨rfl, rfl, rfl, rfl⟩

/-- R371: an APU cycle keeps every bound. -/
theorem Apu.Ok.cycle {u : Apu} (h : u.Ok) (l : Launch) : (u.cycle l).Ok :=
  (((h.timerTicks l).frameCounterTick l).sampleTick l).of_alike ⟨rfl, rfl, rfl, rfl⟩

/-- R410. -/
theorem Apu.ok_reset : Apu.Ok {} where
  frameStep_lt := by decide
  samples_le := by rw [List.length_nil]; exact Nat.zero_le _
  lfsr_ne := by decide

end Sys2Proof.Machine
end

