-- ==== Sys2Proof/Laws/Bits.lean ====
section
/-! SUPPORT. Lemmas about the bit helpers and the flags: what a written flag reads as, and that every other
flag stays. -/

namespace Sys2Proof

theorem getLsbD_putBit {n : Nat} (v : BitVec n) (i j : Nat) (b : Bool) :
    (putBit v i b).getLsbD j = if i = j then (b && decide (j < n)) else v.getLsbD j := by
  unfold putBit
  by_cases hj : j < n
  · by_cases hij : i = j
    · subst hij
      cases b <;> simp [hj]
    · have hji : j ≠ i := fun h => hij h.symm
      cases b <;> simp [hij, hji, hj]
  · have := BitVec.getLsbD_of_ge v j (by omega)
    by_cases hij : i = j <;> cases b <;> simp [hj, hij, this]

@[simp] theorem getElem_putBit {n : Nat} (v : BitVec n) (i j : Nat) (b : Bool) (h : j < n) :
    (putBit v i b)[j] = if i = j then b else v[j] := by
  have := getLsbD_putBit v i j b
  simpa [h] using this

@[simp] theorem hi8_word (hi lo : Byte) : hi8 (word hi lo) = hi := by
  apply BitVec.eq_of_getLsbD_eq
  intro i h
  simp only [hi8, word, BitVec.getLsbD_extractLsb', BitVec.getLsbD_append, h, decide_true, Bool.true_and]
  rw [if_neg (by omega)]
  congr 1
  omega

@[simp] theorem lo8_word (hi lo : Byte) : lo8 (word hi lo) = lo := by
  apply BitVec.eq_of_getLsbD_eq
  intro i h
  simp only [lo8, word, BitVec.getLsbD_extractLsb', BitVec.getLsbD_append, h, decide_true, Bool.true_and,
    Nat.zero_add, if_true]

@[simp] theorem word_hi8_lo8 (w : Addr) : word (hi8 w) (lo8 w) = w := by
  apply BitVec.eq_of_getLsbD_eq
  intro i h
  simp only [hi8, lo8, word, BitVec.getLsbD_extractLsb', BitVec.getLsbD_append]
  by_cases hi : i < 8
  · simp [hi]
  · have h8 : i - 8 < 8 := by omega
    have h9 : 8 + (i - 8) = i := by omega
    simp [hi, h8, h9]

theorem toNat_word (hi lo : Byte) : (word hi lo).toNat = 256 * hi.toNat + lo.toNat := by
  have h := lo.isLt
  have e := Nat.two_pow_add_eq_or_of_lt (i := 8) h hi.toNat
  simp only [word, BitVec.toNat_append, Nat.shiftLeft_eq]
  rw [Nat.mul_comm]
  omega

@[simp] theorem toNat_zext16 (b : Byte) : (zext16 b).toNat = b.toNat := by
  have := b.isLt
  unfold zext16
  simp
  omega

namespace Machine

@[simp] theorem flagOf_putFlag (p : Byte) (f g : Flag) (b : Bool) :
    flagOf (putFlag p f b) g = if f = g then b else flagOf p g := by
  cases f <;> cases g <;> simp [flagOf, putFlag, Flag.index]

@[simp] theorem State.flag_setFlag (st : State) (f g : Flag) (b : Bool) :
    (st.setFlag f b).flag g = if f = g then b else st.flag g :=
  flagOf_putFlag st.p f g b

/-- A status byte is its eight flags. -/
theorem status_ext {p q : Byte} (h : ∀ f, flagOf p f = flagOf q f) : p = q := by
  apply BitVec.eq_of_getLsbD_eq
  intro i hi
  have h0 := h .c
  have h1 := h .z
  have h2 := h .i
  have h3 := h .d
  have h4 := h .b
  have h5 := h .u
  have h6 := h .v
  have h7 := h .n
  simp only [flagOf, Flag.index] at h0 h1 h2 h3 h4 h5 h6 h7
  match i, hi with
  | 0, _ => exact h0
  | 1, _ => exact h1
  | 2, _ => exact h2
  | 3, _ => exact h3
  | 4, _ => exact h4
  | 5, _ => exact h5
  | 6, _ => exact h6
  | 7, _ => exact h7

/-- R123, R174: B keeps its value, U is 1, the other six come from the pulled byte. -/
@[simp] theorem flagOf_pulledStatus (p m : Byte) (g : Flag) :
    flagOf (pulledStatus p m) g = if g = .b then flagOf p .b else if g = .u then true else flagOf m g := by
  cases g <;> simp [flagOf, pulledStatus, Flag.index]

/-- R121: the pushed byte has B and U set. -/
@[simp] theorem flagOf_pushedByPhp (p : Byte) (g : Flag) :
    flagOf (pushedByPhp p) g = if g = .b ∨ g = .u then true else flagOf p g := by
  cases g <;> simp [flagOf, pushedByPhp, Flag.index]

/-- R213, R173: entry writes B and I and nothing else. -/
@[simp] theorem flagOf_entryStatus (p : Byte) (b : Bool) (g : Flag) :
    flagOf (entryStatus p b) g = if g = .b then b else if g = .i then true else flagOf p g := by
  cases g <;> simp [entryStatus]

/-- R18: "push P with U=1". -/
theorem flagOf_or_unused (p : Byte) (g : Flag) :
    flagOf (p ||| 0x20) g = if g = .u then true else flagOf p g := by
  cases g <;> simp [flagOf, Flag.index]

/-- The same, with the literal as `simp` writes it. -/
@[simp] theorem flagOf_or_bit5 (p : Byte) (g : Flag) :
    flagOf (p ||| 32#8) g = if g = .u then true else flagOf p g := flagOf_or_unused p g

@[simp] theorem State.flag_setP (st : State) (p : Byte) (g : Flag) : (st.setP p).flag g = flagOf p g := rfl

end Machine
end Sys2Proof
end

