-- ==== Sys2Proof/Laws/Ppu.lean ====
section
/-! SUPPORT. The PPU keeps `Ppu.Ok`: its registers, its bus, sprite evaluation, the pixel and the dot each stay
within the bounds of R300. -/

namespace Sys2Proof.Machine

theorem nametableKey_lt (m : Config.Mirroring) (a : Nat) : nametableKey m a < 2048 := by
  unfold nametableKey nametableSelect
  split <;> omega

theorem paletteIndex_lt (a : Nat) : paletteIndex a < 32 := by
  unfold paletteIndex
  simp only
  split <;> omega

/-- Bits 4-0 of a status stay clear when one of bits 7-5 is written. -/
theorem status_low_putBit {v : Byte} (h : v &&& 0x1F = 0) {i : Nat} (hi : 5 ≤ i) (b : Bool) :
    putBit v i b &&& 0x1F = 0 := by
  apply BitVec.eq_of_getLsbD_eq
  intro j hj
  have h' := congrArg (fun w => w.getLsbD j) h
  simp only [BitVec.getLsbD_and] at h' ⊢
  rw [getLsbD_putBit]
  split
  · rename_i hij
    have hz : (0x1F : Byte).getLsbD j = false := by
      have : j = 5 ∨ j = 6 ∨ j = 7 := by omega
      rcases this with h | h | h <;> subst h <;> decide
    rw [hz]
    simp
  · exact h'

/-- `q` differs from `p` in no bounded field. -/
structure Ppu.Alike (p q : Ppu) : Prop where
  dot : q.dot = p.dot
  scanline : q.scanline = p.scanline
  sprites : q.sprites = p.sprites
  status : q.status = p.status
  dmaCounter : q.dmaCounter = p.dmaCounter
  nt : q.nt = p.nt
  pal : q.pal = p.pal
  oam : q.oam = p.oam
  framebuffer : q.framebuffer = p.framebuffer

theorem Ppu.Ok.of_alike {p q : Ppu} (h : p.Ok) (e : Ppu.Alike p q) : q.Ok := by
  constructor
  · rw [e.dot]; exact h.dot_le
  · rw [e.scanline]; exact h.scanline_le
  · rw [e.sprites]; exact h.sprites_le
  · rw [e.status]; exact h.status_low
  · rw [e.dmaCounter]; exact h.dma_le
  · rw [e.nt]; exact h.nt_sized
  · rw [e.pal]; exact h.pal_sized
  · rw [e.oam]; exact h.oam_sized
  · rw [e.framebuffer]; exact h.frame_sorted

theorem Ppu.Ok.withStatus {p : Ppu} (h : p.Ok) {v : Byte} (hv : v &&& 0x1F = 0) : Ppu.Ok { p with status := v } :=
  { h with status_low := hv }

theorem Ppu.Ok.advanceV {p : Ppu} (h : p.Ok) : p.advanceV.Ok := h.of_alike ⟨rfl, rfl, rfl, rfl, rfl, rfl, rfl, rfl, rfl⟩

theorem Ppu.Ok.busWrite {p : Ppu} (h : p.Ok) (c : Cartridge) (a : BitVec 14) (b : Byte) : (p.busWrite c a b).Ok := by
  unfold Ppu.busWrite
  simp only
  split
  · exact h
  · split
    · exact { h with nt_sized := Memory.sized_write h.nt_sized (nametableKey_lt _ _) b }
    · exact { h with pal_sized := Memory.sized_write h.pal_sized (paletteIndex_lt _) b }

theorem Ppu.Ok.writeOamAt {p : Ppu} (h : p.Ok) {k : Nat} (hk : k < 256) (b : Byte) :
    Ppu.Ok { p with oam := p.oam.write k b } :=
  { h with oam_sized := Memory.sized_write h.oam_sized hk b }

theorem Ppu.Ok.readReg {p : Ppu} (h : p.Ok) (c : Cartridge) (r : Nat) : (p.readReg c r).2.Ok := by
  unfold Ppu.readReg
  split
  · exact (h.withStatus (status_low_putBit h.status_low (by decide) false)).of_alike
      ⟨rfl, rfl, rfl, rfl, rfl, rfl, rfl, rfl, rfl⟩
  · exact h
  · exact h.of_alike ⟨rfl, rfl, rfl, rfl, rfl, rfl, rfl, rfl, rfl⟩
  · exact h

theorem Ppu.Ok.writeReg {p : Ppu} (h : p.Ok) (c : Cartridge) (r : Nat) (b : Byte) : (p.writeReg c r b).Ok := by
  have hq : Ppu.Ok { p with lastWrite := b } := h.of_alike ⟨rfl, rfl, rfl, rfl, rfl, rfl, rfl, rfl, rfl⟩
  unfold Ppu.writeReg
  simp only
  split
  · exact hq.of_alike ⟨rfl, rfl, rfl, rfl, rfl, rfl, rfl, rfl, rfl⟩
  · exact hq.of_alike ⟨rfl, rfl, rfl, rfl, rfl, rfl, rfl, rfl, rfl⟩
  · exact hq.of_alike ⟨rfl, rfl, rfl, rfl, rfl, rfl, rfl, rfl, rfl⟩
  · exact (hq.writeOamAt p.oamAddr.isLt b).of_alike ⟨rfl, rfl, rfl, rfl, rfl, rfl, rfl, rfl, rfl⟩
  · unfold Ppu.writeScroll
    split <;> exact hq.of_alike ⟨rfl, rfl, rfl, rfl, rfl, rfl, rfl, rfl, rfl⟩
  · unfold Ppu.writeAddr
    split <;> exact hq.of_alike ⟨rfl, rfl, rfl, rfl, rfl, rfl, rfl, rfl, rfl⟩
  · exact (hq.busWrite c _ b).advanceV
  · exact hq

/-! ## The dot -/

theorem Ppu.Ok.dmaCountdown {p : Ppu} (h : p.Ok) : p.dmaCountdown.Ok := by
  unfold Ppu.dmaCountdown
  split
  · split
    · exact h.of_alike ⟨rfl, rfl, rfl, rfl, rfl, rfl, rfl, rfl, rfl⟩
    · exact { h with dma_le := by have := h.dma_le; simp only; omega }
  · exact h

theorem Ppu.Ok.vblankStart {p : Ppu} (h : p.Ok) : p.vblankStart.Ok := by
  unfold Ppu.vblankStart
  split
  · exact (h.withStatus (status_low_putBit h.status_low (by decide) true)).of_alike
      ⟨rfl, rfl, rfl, rfl, rfl, rfl, rfl, rfl, rfl⟩
  · exact h

theorem Ppu.Ok.vblankEnd {p : Ppu} (h : p.Ok) : p.vblankEnd.Ok := by
  unfold Ppu.vblankEnd
  split
  · refine h.withStatus (status_low_putBit (status_low_putBit (status_low_putBit h.status_low ?_ false) ?_ false) ?_
      false) <;> decide
  · exact h

theorem Ppu.backgroundStep_alike (c : Cartridge) (p : Ppu) (d : Nat) : Ppu.Alike p (p.backgroundStep c d) := by
  unfold Ppu.backgroundStep
  simp only
  split <;> exact ⟨rfl, rfl, rfl, rfl, rfl, rfl, rfl, rfl, rfl⟩

theorem Ppu.Ok.scanSprites (c : Cartridge) (t fuel n : Nat) {p : Ppu} (h : p.Ok) (hlt : p.sprites.length < 8) :
    (Ppu.scanSprites c t fuel n p).Ok := by
  induction fuel generalizing n p with
  | zero => exact h
  | succ k ih =>
    unfold Ppu.scanSprites
    simp only
    split
    · have hle : (p.sprites ++ [p.spriteEntry c n (p.spriteRow n t).toNat]).length ≤ 8 := by simp; omega
      have hq : Ppu.Ok { p with sprites := p.sprites ++ [p.spriteEntry c n (p.spriteRow n t).toNat] } :=
        { h with sprites_le := hle }
      split
      · exact hq.withStatus (status_low_putBit h.status_low (by decide) true)
      · rename_i hne
        exact ih _ hq (by simp only at hne ⊢; omega)
    · exact ih _ h hlt

theorem Ppu.Ok.evaluateSprites {p : Ppu} (h : p.Ok) (c : Cartridge) (t : Nat) : (p.evaluateSprites c t).Ok :=
  Ppu.Ok.scanSprites c t 64 0 { h with sprites_le := by simp } (by simp)

theorem Ppu.Ok.renderStep {p : Ppu} (h : p.Ok) (c : Cartridge) : (p.renderStep c).Ok := by
  unfold Ppu.renderStep
  split
  · simp only
    generalize hb : (if (1 ≤ p.dot ∧ p.dot ≤ 256) ∨ (321 ≤ p.dot ∧ p.dot ≤ 336) then p.backgroundStep c p.dot
      else p) = q
    have hq : q.Ok := by
      rw [← hb]
      split
      · exact h.of_alike (Ppu.backgroundStep_alike c p p.dot)
      · exact h
    have hv : Ppu.Ok { q with v := q.scrollStep p.dot } :=
      hq.of_alike ⟨rfl, rfl, rfl, rfl, rfl, rfl, rfl, rfl, rfl⟩
    split
    · exact hv.evaluateSprites c _
    · exact hv
  · exact h

theorem Ppu.Ok.pixelStep {p : Ppu} (h : p.Ok) : p.pixelStep.Ok := by
  unfold Ppu.pixelStep Ppu.emitPixel
  split
  · have hs : (if p.spriteZeroHit (p.dot - 1) then putBit p.status 6 true else p.status) &&& 0x1F = 0 := by
      split
      · exact status_low_putBit h.status_low (by decide) true
      · exact h.status_low
    exact { h with status_low := hs, frame_sorted := Frame.sorted_put h.frame_sorted _ _ }
  · exact h

theorem Ppu.Ok.advance {p : Ppu} (h : p.Ok) : p.advance.Ok := by
  have hd := h.dot_le
  have hs := h.scanline_le
  unfold Ppu.advance
  simp only
  generalize hq : (if p.scanline = 261 ∧ p.dot + 1 = 339 ∧ p.oddFrame = true then 340 else p.dot + 1) = d
  have hle : d ≤ 341 := by
    rw [← hq]
    split <;> omega
  split
  · split
    · exact { h with dot_le := by simp, scanline_le := by simp }
    · exact { h with dot_le := by simp, scanline_le := by simp only; omega }
  · exact { h with dot_le := by simp only; omega }

/-- R320: a dot keeps every bound. -/
theorem Ppu.Ok.tick {p : Ppu} (h : p.Ok) (c : Cartridge) : (p.tick c).Ok :=
  (((((h.dmaCountdown).vblankStart).vblankEnd).renderStep c).pixelStep).advance

/-- R310. -/
theorem Ppu.Ok.reset {p : Ppu} (h : p.Ok) : p.reset.Ok :=
  { dot_le := by simp [Ppu.reset], scanline_le := by simp [Ppu.reset], sprites_le := by simp [Ppu.reset]
    status_low := by simp [Ppu.reset], dma_le := by simp [Ppu.reset], nt_sized := h.nt_sized
    pal_sized := h.pal_sized, oam_sized := h.oam_sized, frame_sorted := h.frame_sorted }

end Sys2Proof.Machine
end

