-- ==== Sys2Proof/Laws/Beam.lean ====
section
/-! SUPPORT. What one dot does to the beam, to the DMA countdown and to the frame counter, whatever it renders:
each is the effect of one phase of the dot, and the other phases leave it. -/

namespace Sys2Proof.Machine

/-- The parts of the PPU that rendering never touches. -/
structure Ppu.SameBeam (p q : Ppu) : Prop where
  dot : q.dot = p.dot
  scanline : q.scanline = p.scanline
  oddFrame : q.oddFrame = p.oddFrame
  dmaActive : q.dmaActive = p.dmaActive
  dmaCounter : q.dmaCounter = p.dmaCounter
  frameCount : q.frameCount = p.frameCount
  ctrl : q.ctrl = p.ctrl
  mask : q.mask = p.mask

theorem Ppu.SameBeam.rfl' (p : Ppu) : Ppu.SameBeam p p := ⟨rfl, rfl, rfl, rfl, rfl, rfl, rfl, rfl⟩

theorem Ppu.SameBeam.trans {p q r : Ppu} (h : Ppu.SameBeam p q) (g : Ppu.SameBeam q r) : Ppu.SameBeam p r :=
  ⟨g.dot.trans h.dot, g.scanline.trans h.scanline, g.oddFrame.trans h.oddFrame, g.dmaActive.trans h.dmaActive,
    g.dmaCounter.trans h.dmaCounter, g.frameCount.trans h.frameCount, g.ctrl.trans h.ctrl, g.mask.trans h.mask⟩

theorem Ppu.sameBeam_backgroundStep (c : Cartridge) (p : Ppu) (d : Nat) : Ppu.SameBeam p (p.backgroundStep c d) := by
  unfold Ppu.backgroundStep
  simp only
  split <;> exact ⟨rfl, rfl, rfl, rfl, rfl, rfl, rfl, rfl⟩

theorem Ppu.sameBeam_scanSprites (c : Cartridge) (t : Nat) :
    ∀ (fuel n : Nat) (p : Ppu), Ppu.SameBeam p (Ppu.scanSprites c t fuel n p)
  | 0, _, p => .rfl' p
  | fuel + 1, n, p => by
    unfold Ppu.scanSprites
    simp only
    split
    · split
      · exact ⟨rfl, rfl, rfl, rfl, rfl, rfl, rfl, rfl⟩
      · refine .trans ?_ (Ppu.sameBeam_scanSprites c t fuel (n + 1) _)
        exact ⟨rfl, rfl, rfl, rfl, rfl, rfl, rfl, rfl⟩
    · exact Ppu.sameBeam_scanSprites c t fuel (n + 1) p

theorem Ppu.sameBeam_evaluateSprites (c : Cartridge) (t : Nat) (p : Ppu) : Ppu.SameBeam p (p.evaluateSprites c t) := by
  refine .trans ?_ (Ppu.sameBeam_scanSprites c t 64 0 { p with sprites := [] })
  exact ⟨rfl, rfl, rfl, rfl, rfl, rfl, rfl, rfl⟩

theorem Ppu.sameBeam_renderStep (c : Cartridge) (p : Ppu) : Ppu.SameBeam p (p.renderStep c) := by
  have fetched : ∀ b : Prop, ∀ [Decidable b], Ppu.SameBeam p (if b then p.backgroundStep c p.dot else p) := by
    intro b _
    by_cases h : b
    · rw [if_pos h]
      exact Ppu.sameBeam_backgroundStep c p p.dot
    · rw [if_neg h]
      exact .rfl' p
  unfold Ppu.renderStep
  by_cases h : p.onRenderLine = true
  · rw [if_pos h]
    simp only
    have scrolled : ∀ (q : Ppu) (v : BitVec 15), Ppu.SameBeam q { q with v := v } :=
      fun q v => ⟨rfl, rfl, rfl, rfl, rfl, rfl, rfl, rfl⟩
    by_cases h2 : p.dot = 257
    · rw [if_pos h2]
      exact ((fetched _).trans (scrolled _ _)).trans (Ppu.sameBeam_evaluateSprites c _ _)
    · rw [if_neg h2]
      exact (fetched _).trans (scrolled _ _)
  · rw [if_neg h]
    exact .rfl' p

theorem Ppu.sameBeam_pixelStep (p : Ppu) : Ppu.SameBeam p p.pixelStep := by
  unfold Ppu.pixelStep
  split
  · exact ⟨rfl, rfl, rfl, rfl, rfl, rfl, rfl, rfl⟩
  · exact .rfl' p

theorem ppuTick_ppu (st : State) : (ppuTick st).ppu = st.ppu.tick st.launch.cart := by
  unfold ppuTick
  simp only
  split <;> split <;> rfl

end Sys2Proof.Machine
end

