-- ==== Sys2Proof/Laws/State.lean ====
section
/-! SUPPORT. What each named update of `Machine/Update.lean` does to each field of the state, one lemma each,
true by `rfl`, so that no proof unfolds a record update. -/

namespace Sys2Proof.Machine

variable (st : State)

@[simp] theorem State.setA_a (v : Byte) : (st.setA v).a = v := rfl
@[simp] theorem State.setA_x (v : Byte) : (st.setA v).x = st.x := rfl
@[simp] theorem State.setA_y (v : Byte) : (st.setA v).y = st.y := rfl
@[simp] theorem State.setA_s (v : Byte) : (st.setA v).s = st.s := rfl
@[simp] theorem State.setA_p (v : Byte) : (st.setA v).p = st.p := rfl
@[simp] theorem State.setA_pc (v : Byte) : (st.setA v).pc = st.pc := rfl
@[simp] theorem State.setA_nmiPending (v : Byte) : (st.setA v).nmiPending = st.nmiPending := rfl
@[simp] theorem State.setA_irqPending (v : Byte) : (st.setA v).irqPending = st.irqPending := rfl
@[simp] theorem State.setA_halted (v : Byte) : (st.setA v).halted = st.halted := rfl
@[simp] theorem State.setA_budget (v : Byte) : (st.setA v).budget = st.budget := rfl
@[simp] theorem State.setA_cycleCount (v : Byte) : (st.setA v).cycleCount = st.cycleCount := rfl
@[simp] theorem State.setA_didNmi (v : Byte) : (st.setA v).didNmi = st.didNmi := rfl
@[simp] theorem State.setA_didIrq (v : Byte) : (st.setA v).didIrq = st.didIrq := rfl
@[simp] theorem State.setA_tickCount (v : Byte) : (st.setA v).tickCount = st.tickCount := rfl
@[simp] theorem State.setA_ram (v : Byte) : (st.setA v).ram = st.ram := rfl
@[simp] theorem State.setA_prgRam (v : Byte) : (st.setA v).prgRam = st.prgRam := rfl
@[simp] theorem State.setA_ppu (v : Byte) : (st.setA v).ppu = st.ppu := rfl
@[simp] theorem State.setA_apu (v : Byte) : (st.setA v).apu = st.apu := rfl
@[simp] theorem State.setA_pads (v : Byte) : (st.setA v).pads = st.pads := rfl
@[simp] theorem State.setA_launch (v : Byte) : (st.setA v).launch = st.launch := rfl
@[simp] theorem State.setA_hostCalls (v : Byte) : (st.setA v).hostCalls = st.hostCalls := rfl

@[simp] theorem State.setX_a (v : Byte) : (st.setX v).a = st.a := rfl
@[simp] theorem State.setX_x (v : Byte) : (st.setX v).x = v := rfl
@[simp] theorem State.setX_y (v : Byte) : (st.setX v).y = st.y := rfl
@[simp] theorem State.setX_s (v : Byte) : (st.setX v).s = st.s := rfl
@[simp] theorem State.setX_p (v : Byte) : (st.setX v).p = st.p := rfl
@[simp] theorem State.setX_pc (v : Byte) : (st.setX v).pc = st.pc := rfl
@[simp] theorem State.setX_nmiPending (v : Byte) : (st.setX v).nmiPending = st.nmiPending := rfl
@[simp] theorem State.setX_irqPending (v : Byte) : (st.setX v).irqPending = st.irqPending := rfl
@[simp] theorem State.setX_halted (v : Byte) : (st.setX v).halted = st.halted := rfl
@[simp] theorem State.setX_budget (v : Byte) : (st.setX v).budget = st.budget := rfl
@[simp] theorem State.setX_cycleCount (v : Byte) : (st.setX v).cycleCount = st.cycleCount := rfl
@[simp] theorem State.setX_didNmi (v : Byte) : (st.setX v).didNmi = st.didNmi := rfl
@[simp] theorem State.setX_didIrq (v : Byte) : (st.setX v).didIrq = st.didIrq := rfl
@[simp] theorem State.setX_tickCount (v : Byte) : (st.setX v).tickCount = st.tickCount := rfl
@[simp] theorem State.setX_ram (v : Byte) : (st.setX v).ram = st.ram := rfl
@[simp] theorem State.setX_prgRam (v : Byte) : (st.setX v).prgRam = st.prgRam := rfl
@[simp] theorem State.setX_ppu (v : Byte) : (st.setX v).ppu = st.ppu := rfl
@[simp] theorem State.setX_apu (v : Byte) : (st.setX v).apu = st.apu := rfl
@[simp] theorem State.setX_pads (v : Byte) : (st.setX v).pads = st.pads := rfl
@[simp] theorem State.setX_launch (v : Byte) : (st.setX v).launch = st.launch := rfl
@[simp] theorem State.setX_hostCalls (v : Byte) : (st.setX v).hostCalls = st.hostCalls := rfl

@[simp] theorem State.setY_a (v : Byte) : (st.setY v).a = st.a := rfl
@[simp] theorem State.setY_x (v : Byte) : (st.setY v).x = st.x := rfl
@[simp] theorem State.setY_y (v : Byte) : (st.setY v).y = v := rfl
@[simp] theorem State.setY_s (v : Byte) : (st.setY v).s = st.s := rfl
@[simp] theorem State.setY_p (v : Byte) : (st.setY v).p = st.p := rfl
@[simp] theorem State.setY_pc (v : Byte) : (st.setY v).pc = st.pc := rfl
@[simp] theorem State.setY_nmiPending (v : Byte) : (st.setY v).nmiPending = st.nmiPending := rfl
@[simp] theorem State.setY_irqPending (v : Byte) : (st.setY v).irqPending = st.irqPending := rfl
@[simp] theorem State.setY_halted (v : Byte) : (st.setY v).halted = st.halted := rfl
@[simp] theorem State.setY_budget (v : Byte) : (st.setY v).budget = st.budget := rfl
@[simp] theorem State.setY_cycleCount (v : Byte) : (st.setY v).cycleCount = st.cycleCount := rfl
@[simp] theorem State.setY_didNmi (v : Byte) : (st.setY v).didNmi = st.didNmi := rfl
@[simp] theorem State.setY_didIrq (v : Byte) : (st.setY v).didIrq = st.didIrq := rfl
@[simp] theorem State.setY_tickCount (v : Byte) : (st.setY v).tickCount = st.tickCount := rfl
@[simp] theorem State.setY_ram (v : Byte) : (st.setY v).ram = st.ram := rfl
@[simp] theorem State.setY_prgRam (v : Byte) : (st.setY v).prgRam = st.prgRam := rfl
@[simp] theorem State.setY_ppu (v : Byte) : (st.setY v).ppu = st.ppu := rfl
@[simp] theorem State.setY_apu (v : Byte) : (st.setY v).apu = st.apu := rfl
@[simp] theorem State.setY_pads (v : Byte) : (st.setY v).pads = st.pads := rfl
@[simp] theorem State.setY_launch (v : Byte) : (st.setY v).launch = st.launch := rfl
@[simp] theorem State.setY_hostCalls (v : Byte) : (st.setY v).hostCalls = st.hostCalls := rfl

@[simp] theorem State.setS_a (v : Byte) : (st.setS v).a = st.a := rfl
@[simp] theorem State.setS_x (v : Byte) : (st.setS v).x = st.x := rfl
@[simp] theorem State.setS_y (v : Byte) : (st.setS v).y = st.y := rfl
@[simp] theorem State.setS_s (v : Byte) : (st.setS v).s = v := rfl
@[simp] theorem State.setS_p (v : Byte) : (st.setS v).p = st.p := rfl
@[simp] theorem State.setS_pc (v : Byte) : (st.setS v).pc = st.pc := rfl
@[simp] theorem State.setS_nmiPending (v : Byte) : (st.setS v).nmiPending = st.nmiPending := rfl
@[simp] theorem State.setS_irqPending (v : Byte) : (st.setS v).irqPending = st.irqPending := rfl
@[simp] theorem State.setS_halted (v : Byte) : (st.setS v).halted = st.halted := rfl
@[simp] theorem State.setS_budget (v : Byte) : (st.setS v).budget = st.budget := rfl
@[simp] theorem State.setS_cycleCount (v : Byte) : (st.setS v).cycleCount = st.cycleCount := rfl
@[simp] theorem State.setS_didNmi (v : Byte) : (st.setS v).didNmi = st.didNmi := rfl
@[simp] theorem State.setS_didIrq (v : Byte) : (st.setS v).didIrq = st.didIrq := rfl
@[simp] theorem State.setS_tickCount (v : Byte) : (st.setS v).tickCount = st.tickCount := rfl
@[simp] theorem State.setS_ram (v : Byte) : (st.setS v).ram = st.ram := rfl
@[simp] theorem State.setS_prgRam (v : Byte) : (st.setS v).prgRam = st.prgRam := rfl
@[simp] theorem State.setS_ppu (v : Byte) : (st.setS v).ppu = st.ppu := rfl
@[simp] theorem State.setS_apu (v : Byte) : (st.setS v).apu = st.apu := rfl
@[simp] theorem State.setS_pads (v : Byte) : (st.setS v).pads = st.pads := rfl
@[simp] theorem State.setS_launch (v : Byte) : (st.setS v).launch = st.launch := rfl
@[simp] theorem State.setS_hostCalls (v : Byte) : (st.setS v).hostCalls = st.hostCalls := rfl

@[simp] theorem State.setP_a (v : Byte) : (st.setP v).a = st.a := rfl
@[simp] theorem State.setP_x (v : Byte) : (st.setP v).x = st.x := rfl
@[simp] theorem State.setP_y (v : Byte) : (st.setP v).y = st.y := rfl
@[simp] theorem State.setP_s (v : Byte) : (st.setP v).s = st.s := rfl
@[simp] theorem State.setP_p (v : Byte) : (st.setP v).p = v := rfl
@[simp] theorem State.setP_pc (v : Byte) : (st.setP v).pc = st.pc := rfl
@[simp] theorem State.setP_nmiPending (v : Byte) : (st.setP v).nmiPending = st.nmiPending := rfl
@[simp] theorem State.setP_irqPending (v : Byte) : (st.setP v).irqPending = st.irqPending := rfl
@[simp] theorem State.setP_halted (v : Byte) : (st.setP v).halted = st.halted := rfl
@[simp] theorem State.setP_budget (v : Byte) : (st.setP v).budget = st.budget := rfl
@[simp] theorem State.setP_cycleCount (v : Byte) : (st.setP v).cycleCount = st.cycleCount := rfl
@[simp] theorem State.setP_didNmi (v : Byte) : (st.setP v).didNmi = st.didNmi := rfl
@[simp] theorem State.setP_didIrq (v : Byte) : (st.setP v).didIrq = st.didIrq := rfl
@[simp] theorem State.setP_tickCount (v : Byte) : (st.setP v).tickCount = st.tickCount := rfl
@[simp] theorem State.setP_ram (v : Byte) : (st.setP v).ram = st.ram := rfl
@[simp] theorem State.setP_prgRam (v : Byte) : (st.setP v).prgRam = st.prgRam := rfl
@[simp] theorem State.setP_ppu (v : Byte) : (st.setP v).ppu = st.ppu := rfl
@[simp] theorem State.setP_apu (v : Byte) : (st.setP v).apu = st.apu := rfl
@[simp] theorem State.setP_pads (v : Byte) : (st.setP v).pads = st.pads := rfl
@[simp] theorem State.setP_launch (v : Byte) : (st.setP v).launch = st.launch := rfl
@[simp] theorem State.setP_hostCalls (v : Byte) : (st.setP v).hostCalls = st.hostCalls := rfl

@[simp] theorem State.setPc_a (v : Addr) : (st.setPc v).a = st.a := rfl
@[simp] theorem State.setPc_x (v : Addr) : (st.setPc v).x = st.x := rfl
@[simp] theorem State.setPc_y (v : Addr) : (st.setPc v).y = st.y := rfl
@[simp] theorem State.setPc_s (v : Addr) : (st.setPc v).s = st.s := rfl
@[simp] theorem State.setPc_p (v : Addr) : (st.setPc v).p = st.p := rfl
@[simp] theorem State.setPc_pc (v : Addr) : (st.setPc v).pc = v := rfl
@[simp] theorem State.setPc_nmiPending (v : Addr) : (st.setPc v).nmiPending = st.nmiPending := rfl
@[simp] theorem State.setPc_irqPending (v : Addr) : (st.setPc v).irqPending = st.irqPending := rfl
@[simp] theorem State.setPc_halted (v : Addr) : (st.setPc v).halted = st.halted := rfl
@[simp] theorem State.setPc_budget (v : Addr) : (st.setPc v).budget = st.budget := rfl
@[simp] theorem State.setPc_cycleCount (v : Addr) : (st.setPc v).cycleCount = st.cycleCount := rfl
@[simp] theorem State.setPc_didNmi (v : Addr) : (st.setPc v).didNmi = st.didNmi := rfl
@[simp] theorem State.setPc_didIrq (v : Addr) : (st.setPc v).didIrq = st.didIrq := rfl
@[simp] theorem State.setPc_tickCount (v : Addr) : (st.setPc v).tickCount = st.tickCount := rfl
@[simp] theorem State.setPc_ram (v : Addr) : (st.setPc v).ram = st.ram := rfl
@[simp] theorem State.setPc_prgRam (v : Addr) : (st.setPc v).prgRam = st.prgRam := rfl
@[simp] theorem State.setPc_ppu (v : Addr) : (st.setPc v).ppu = st.ppu := rfl
@[simp] theorem State.setPc_apu (v : Addr) : (st.setPc v).apu = st.apu := rfl
@[simp] theorem State.setPc_pads (v : Addr) : (st.setPc v).pads = st.pads := rfl
@[simp] theorem State.setPc_launch (v : Addr) : (st.setPc v).launch = st.launch := rfl
@[simp] theorem State.setPc_hostCalls (v : Addr) : (st.setPc v).hostCalls = st.hostCalls := rfl

@[simp] theorem State.setNmiPending_a (v : Bool) : (st.setNmiPending v).a = st.a := rfl
@[simp] theorem State.setNmiPending_x (v : Bool) : (st.setNmiPending v).x = st.x := rfl
@[simp] theorem State.setNmiPending_y (v : Bool) : (st.setNmiPending v).y = st.y := rfl
@[simp] theorem State.setNmiPending_s (v : Bool) : (st.setNmiPending v).s = st.s := rfl
@[simp] theorem State.setNmiPending_p (v : Bool) : (st.setNmiPending v).p = st.p := rfl
@[simp] theorem State.setNmiPending_pc (v : Bool) : (st.setNmiPending v).pc = st.pc := rfl
@[simp] theorem State.setNmiPending_nmiPending (v : Bool) : (st.setNmiPending v).nmiPending = v := rfl
@[simp] theorem State.setNmiPending_irqPending (v : Bool) : (st.setNmiPending v).irqPending = st.irqPending := rfl
@[simp] theorem State.setNmiPending_halted (v : Bool) : (st.setNmiPending v).halted = st.halted := rfl
@[simp] theorem State.setNmiPending_budget (v : Bool) : (st.setNmiPending v).budget = st.budget := rfl
@[simp] theorem State.setNmiPending_cycleCount (v : Bool) : (st.setNmiPending v).cycleCount = st.cycleCount := rfl
@[simp] theorem State.setNmiPending_didNmi (v : Bool) : (st.setNmiPending v).didNmi = st.didNmi := rfl
@[simp] theorem State.setNmiPending_didIrq (v : Bool) : (st.setNmiPending v).didIrq = st.didIrq := rfl
@[simp] theorem State.setNmiPending_tickCount (v : Bool) : (st.setNmiPending v).tickCount = st.tickCount := rfl
@[simp] theorem State.setNmiPending_ram (v : Bool) : (st.setNmiPending v).ram = st.ram := rfl
@[simp] theorem State.setNmiPending_prgRam (v : Bool) : (st.setNmiPending v).prgRam = st.prgRam := rfl
@[simp] theorem State.setNmiPending_ppu (v : Bool) : (st.setNmiPending v).ppu = st.ppu := rfl
@[simp] theorem State.setNmiPending_apu (v : Bool) : (st.setNmiPending v).apu = st.apu := rfl
@[simp] theorem State.setNmiPending_pads (v : Bool) : (st.setNmiPending v).pads = st.pads := rfl
@[simp] theorem State.setNmiPending_launch (v : Bool) : (st.setNmiPending v).launch = st.launch := rfl
@[simp] theorem State.setNmiPending_hostCalls (v : Bool) : (st.setNmiPending v).hostCalls = st.hostCalls := rfl

@[simp] theorem State.setIrqPending_a (v : Bool) : (st.setIrqPending v).a = st.a := rfl
@[simp] theorem State.setIrqPending_x (v : Bool) : (st.setIrqPending v).x = st.x := rfl
@[simp] theorem State.setIrqPending_y (v : Bool) : (st.setIrqPending v).y = st.y := rfl
@[simp] theorem State.setIrqPending_s (v : Bool) : (st.setIrqPending v).s = st.s := rfl
@[simp] theorem State.setIrqPending_p (v : Bool) : (st.setIrqPending v).p = st.p := rfl
@[simp] theorem State.setIrqPending_pc (v : Bool) : (st.setIrqPending v).pc = st.pc := rfl
@[simp] theorem State.setIrqPending_nmiPending (v : Bool) : (st.setIrqPending v).nmiPending = st.nmiPending := rfl
@[simp] theorem State.setIrqPending_irqPending (v : Bool) : (st.setIrqPending v).irqPending = v := rfl
@[simp] theorem State.setIrqPending_halted (v : Bool) : (st.setIrqPending v).halted = st.halted := rfl
@[simp] theorem State.setIrqPending_budget (v : Bool) : (st.setIrqPending v).budget = st.budget := rfl
@[simp] theorem State.setIrqPending_cycleCount (v : Bool) : (st.setIrqPending v).cycleCount = st.cycleCount := rfl
@[simp] theorem State.setIrqPending_didNmi (v : Bool) : (st.setIrqPending v).didNmi = st.didNmi := rfl
@[simp] theorem State.setIrqPending_didIrq (v : Bool) : (st.setIrqPending v).didIrq = st.didIrq := rfl
@[simp] theorem State.setIrqPending_tickCount (v : Bool) : (st.setIrqPending v).tickCount = st.tickCount := rfl
@[simp] theorem State.setIrqPending_ram (v : Bool) : (st.setIrqPending v).ram = st.ram := rfl
@[simp] theorem State.setIrqPending_prgRam (v : Bool) : (st.setIrqPending v).prgRam = st.prgRam := rfl
@[simp] theorem State.setIrqPending_ppu (v : Bool) : (st.setIrqPending v).ppu = st.ppu := rfl
@[simp] theorem State.setIrqPending_apu (v : Bool) : (st.setIrqPending v).apu = st.apu := rfl
@[simp] theorem State.setIrqPending_pads (v : Bool) : (st.setIrqPending v).pads = st.pads := rfl
@[simp] theorem State.setIrqPending_launch (v : Bool) : (st.setIrqPending v).launch = st.launch := rfl
@[simp] theorem State.setIrqPending_hostCalls (v : Bool) : (st.setIrqPending v).hostCalls = st.hostCalls := rfl

@[simp] theorem State.setHalted_a (v : Bool) : (st.setHalted v).a = st.a := rfl
@[simp] theorem State.setHalted_x (v : Bool) : (st.setHalted v).x = st.x := rfl
@[simp] theorem State.setHalted_y (v : Bool) : (st.setHalted v).y = st.y := rfl
@[simp] theorem State.setHalted_s (v : Bool) : (st.setHalted v).s = st.s := rfl
@[simp] theorem State.setHalted_p (v : Bool) : (st.setHalted v).p = st.p := rfl
@[simp] theorem State.setHalted_pc (v : Bool) : (st.setHalted v).pc = st.pc := rfl
@[simp] theorem State.setHalted_nmiPending (v : Bool) : (st.setHalted v).nmiPending = st.nmiPending := rfl
@[simp] theorem State.setHalted_irqPending (v : Bool) : (st.setHalted v).irqPending = st.irqPending := rfl
@[simp] theorem State.setHalted_halted (v : Bool) : (st.setHalted v).halted = v := rfl
@[simp] theorem State.setHalted_budget (v : Bool) : (st.setHalted v).budget = st.budget := rfl
@[simp] theorem State.setHalted_cycleCount (v : Bool) : (st.setHalted v).cycleCount = st.cycleCount := rfl
@[simp] theorem State.setHalted_didNmi (v : Bool) : (st.setHalted v).didNmi = st.didNmi := rfl
@[simp] theorem State.setHalted_didIrq (v : Bool) : (st.setHalted v).didIrq = st.didIrq := rfl
@[simp] theorem State.setHalted_tickCount (v : Bool) : (st.setHalted v).tickCount = st.tickCount := rfl
@[simp] theorem State.setHalted_ram (v : Bool) : (st.setHalted v).ram = st.ram := rfl
@[simp] theorem State.setHalted_prgRam (v : Bool) : (st.setHalted v).prgRam = st.prgRam := rfl
@[simp] theorem State.setHalted_ppu (v : Bool) : (st.setHalted v).ppu = st.ppu := rfl
@[simp] theorem State.setHalted_apu (v : Bool) : (st.setHalted v).apu = st.apu := rfl
@[simp] theorem State.setHalted_pads (v : Bool) : (st.setHalted v).pads = st.pads := rfl
@[simp] theorem State.setHalted_launch (v : Bool) : (st.setHalted v).launch = st.launch := rfl
@[simp] theorem State.setHalted_hostCalls (v : Bool) : (st.setHalted v).hostCalls = st.hostCalls := rfl

@[simp] theorem State.setBudget_a (v : Nat) : (st.setBudget v).a = st.a := rfl
@[simp] theorem State.setBudget_x (v : Nat) : (st.setBudget v).x = st.x := rfl
@[simp] theorem State.setBudget_y (v : Nat) : (st.setBudget v).y = st.y := rfl
@[simp] theorem State.setBudget_s (v : Nat) : (st.setBudget v).s = st.s := rfl
@[simp] theorem State.setBudget_p (v : Nat) : (st.setBudget v).p = st.p := rfl
@[simp] theorem State.setBudget_pc (v : Nat) : (st.setBudget v).pc = st.pc := rfl
@[simp] theorem State.setBudget_nmiPending (v : Nat) : (st.setBudget v).nmiPending = st.nmiPending := rfl
@[simp] theorem State.setBudget_irqPending (v : Nat) : (st.setBudget v).irqPending = st.irqPending := rfl
@[simp] theorem State.setBudget_halted (v : Nat) : (st.setBudget v).halted = st.halted := rfl
@[simp] theorem State.setBudget_budget (v : Nat) : (st.setBudget v).budget = v := rfl
@[simp] theorem State.setBudget_cycleCount (v : Nat) : (st.setBudget v).cycleCount = st.cycleCount := rfl
@[simp] theorem State.setBudget_didNmi (v : Nat) : (st.setBudget v).didNmi = st.didNmi := rfl
@[simp] theorem State.setBudget_didIrq (v : Nat) : (st.setBudget v).didIrq = st.didIrq := rfl
@[simp] theorem State.setBudget_tickCount (v : Nat) : (st.setBudget v).tickCount = st.tickCount := rfl
@[simp] theorem State.setBudget_ram (v : Nat) : (st.setBudget v).ram = st.ram := rfl
@[simp] theorem State.setBudget_prgRam (v : Nat) : (st.setBudget v).prgRam = st.prgRam := rfl
@[simp] theorem State.setBudget_ppu (v : Nat) : (st.setBudget v).ppu = st.ppu := rfl
@[simp] theorem State.setBudget_apu (v : Nat) : (st.setBudget v).apu = st.apu := rfl
@[simp] theorem State.setBudget_pads (v : Nat) : (st.setBudget v).pads = st.pads := rfl
@[simp] theorem State.setBudget_launch (v : Nat) : (st.setBudget v).launch = st.launch := rfl
@[simp] theorem State.setBudget_hostCalls (v : Nat) : (st.setBudget v).hostCalls = st.hostCalls := rfl

@[simp] theorem State.setCycleCount_a (v : BitVec 64) : (st.setCycleCount v).a = st.a := rfl
@[simp] theorem State.setCycleCount_x (v : BitVec 64) : (st.setCycleCount v).x = st.x := rfl
@[simp] theorem State.setCycleCount_y (v : BitVec 64) : (st.setCycleCount v).y = st.y := rfl
@[simp] theorem State.setCycleCount_s (v : BitVec 64) : (st.setCycleCount v).s = st.s := rfl
@[simp] theorem State.setCycleCount_p (v : BitVec 64) : (st.setCycleCount v).p = st.p := rfl
@[simp] theorem State.setCycleCount_pc (v : BitVec 64) : (st.setCycleCount v).pc = st.pc := rfl
@[simp] theorem State.setCycleCount_nmiPending (v : BitVec 64) : (st.setCycleCount v).nmiPending = st.nmiPending := rfl
@[simp] theorem State.setCycleCount_irqPending (v : BitVec 64) : (st.setCycleCount v).irqPending = st.irqPending := rfl
@[simp] theorem State.setCycleCount_halted (v : BitVec 64) : (st.setCycleCount v).halted = st.halted := rfl
@[simp] theorem State.setCycleCount_budget (v : BitVec 64) : (st.setCycleCount v).budget = st.budget := rfl
@[simp] theorem State.setCycleCount_cycleCount (v : BitVec 64) : (st.setCycleCount v).cycleCount = v := rfl
@[simp] theorem State.setCycleCount_didNmi (v : BitVec 64) : (st.setCycleCount v).didNmi = st.didNmi := rfl
@[simp] theorem State.setCycleCount_didIrq (v : BitVec 64) : (st.setCycleCount v).didIrq = st.didIrq := rfl
@[simp] theorem State.setCycleCount_tickCount (v : BitVec 64) : (st.setCycleCount v).tickCount = st.tickCount := rfl
@[simp] theorem State.setCycleCount_ram (v : BitVec 64) : (st.setCycleCount v).ram = st.ram := rfl
@[simp] theorem State.setCycleCount_prgRam (v : BitVec 64) : (st.setCycleCount v).prgRam = st.prgRam := rfl
@[simp] theorem State.setCycleCount_ppu (v : BitVec 64) : (st.setCycleCount v).ppu = st.ppu := rfl
@[simp] theorem State.setCycleCount_apu (v : BitVec 64) : (st.setCycleCount v).apu = st.apu := rfl
@[simp] theorem State.setCycleCount_pads (v : BitVec 64) : (st.setCycleCount v).pads = st.pads := rfl
@[simp] theorem State.setCycleCount_launch (v : BitVec 64) : (st.setCycleCount v).launch = st.launch := rfl
@[simp] theorem State.setCycleCount_hostCalls (v : BitVec 64) : (st.setCycleCount v).hostCalls = st.hostCalls := rfl

@[simp] theorem State.setDidNmi_a (v : Bool) : (st.setDidNmi v).a = st.a := rfl
@[simp] theorem State.setDidNmi_x (v : Bool) : (st.setDidNmi v).x = st.x := rfl
@[simp] theorem State.setDidNmi_y (v : Bool) : (st.setDidNmi v).y = st.y := rfl
@[simp] theorem State.setDidNmi_s (v : Bool) : (st.setDidNmi v).s = st.s := rfl
@[simp] theorem State.setDidNmi_p (v : Bool) : (st.setDidNmi v).p = st.p := rfl
@[simp] theorem State.setDidNmi_pc (v : Bool) : (st.setDidNmi v).pc = st.pc := rfl
@[simp] theorem State.setDidNmi_nmiPending (v : Bool) : (st.setDidNmi v).nmiPending = st.nmiPending := rfl
@[simp] theorem State.setDidNmi_irqPending (v : Bool) : (st.setDidNmi v).irqPending = st.irqPending := rfl
@[simp] theorem State.setDidNmi_halted (v : Bool) : (st.setDidNmi v).halted = st.halted := rfl
@[simp] theorem State.setDidNmi_budget (v : Bool) : (st.setDidNmi v).budget = st.budget := rfl
@[simp] theorem State.setDidNmi_cycleCount (v : Bool) : (st.setDidNmi v).cycleCount = st.cycleCount := rfl
@[simp] theorem State.setDidNmi_didNmi (v : Bool) : (st.setDidNmi v).didNmi = v := rfl
@[simp] theorem State.setDidNmi_didIrq (v : Bool) : (st.setDidNmi v).didIrq = st.didIrq := rfl
@[simp] theorem State.setDidNmi_tickCount (v : Bool) : (st.setDidNmi v).tickCount = st.tickCount := rfl
@[simp] theorem State.setDidNmi_ram (v : Bool) : (st.setDidNmi v).ram = st.ram := rfl
@[simp] theorem State.setDidNmi_prgRam (v : Bool) : (st.setDidNmi v).prgRam = st.prgRam := rfl
@[simp] theorem State.setDidNmi_ppu (v : Bool) : (st.setDidNmi v).ppu = st.ppu := rfl
@[simp] theorem State.setDidNmi_apu (v : Bool) : (st.setDidNmi v).apu = st.apu := rfl
@[simp] theorem State.setDidNmi_pads (v : Bool) : (st.setDidNmi v).pads = st.pads := rfl
@[simp] theorem State.setDidNmi_launch (v : Bool) : (st.setDidNmi v).launch = st.launch := rfl
@[simp] theorem State.setDidNmi_hostCalls (v : Bool) : (st.setDidNmi v).hostCalls = st.hostCalls := rfl

@[simp] theorem State.setDidIrq_a (v : Bool) : (st.setDidIrq v).a = st.a := rfl
@[simp] theorem State.setDidIrq_x (v : Bool) : (st.setDidIrq v).x = st.x := rfl
@[simp] theorem State.setDidIrq_y (v : Bool) : (st.setDidIrq v).y = st.y := rfl
@[simp] theorem State.setDidIrq_s (v : Bool) : (st.setDidIrq v).s = st.s := rfl
@[simp] theorem State.setDidIrq_p (v : Bool) : (st.setDidIrq v).p = st.p := rfl
@[simp] theorem State.setDidIrq_pc (v : Bool) : (st.setDidIrq v).pc = st.pc := rfl
@[simp] theorem State.setDidIrq_nmiPending (v : Bool) : (st.setDidIrq v).nmiPending = st.nmiPending := rfl
@[simp] theorem State.setDidIrq_irqPending (v : Bool) : (st.setDidIrq v).irqPending = st.irqPending := rfl
@[simp] theorem State.setDidIrq_halted (v : Bool) : (st.setDidIrq v).halted = st.halted := rfl
@[simp] theorem State.setDidIrq_budget (v : Bool) : (st.setDidIrq v).budget = st.budget := rfl
@[simp] theorem State.setDidIrq_cycleCount (v : Bool) : (st.setDidIrq v).cycleCount = st.cycleCount := rfl
@[simp] theorem State.setDidIrq_didNmi (v : Bool) : (st.setDidIrq v).didNmi = st.didNmi := rfl
@[simp] theorem State.setDidIrq_didIrq (v : Bool) : (st.setDidIrq v).didIrq = v := rfl
@[simp] theorem State.setDidIrq_tickCount (v : Bool) : (st.setDidIrq v).tickCount = st.tickCount := rfl
@[simp] theorem State.setDidIrq_ram (v : Bool) : (st.setDidIrq v).ram = st.ram := rfl
@[simp] theorem State.setDidIrq_prgRam (v : Bool) : (st.setDidIrq v).prgRam = st.prgRam := rfl
@[simp] theorem State.setDidIrq_ppu (v : Bool) : (st.setDidIrq v).ppu = st.ppu := rfl
@[simp] theorem State.setDidIrq_apu (v : Bool) : (st.setDidIrq v).apu = st.apu := rfl
@[simp] theorem State.setDidIrq_pads (v : Bool) : (st.setDidIrq v).pads = st.pads := rfl
@[simp] theorem State.setDidIrq_launch (v : Bool) : (st.setDidIrq v).launch = st.launch := rfl
@[simp] theorem State.setDidIrq_hostCalls (v : Bool) : (st.setDidIrq v).hostCalls = st.hostCalls := rfl

@[simp] theorem State.setTickCount_a (v : Nat) : (st.setTickCount v).a = st.a := rfl
@[simp] theorem State.setTickCount_x (v : Nat) : (st.setTickCount v).x = st.x := rfl
@[simp] theorem State.setTickCount_y (v : Nat) : (st.setTickCount v).y = st.y := rfl
@[simp] theorem State.setTickCount_s (v : Nat) : (st.setTickCount v).s = st.s := rfl
@[simp] theorem State.setTickCount_p (v : Nat) : (st.setTickCount v).p = st.p := rfl
@[simp] theorem State.setTickCount_pc (v : Nat) : (st.setTickCount v).pc = st.pc := rfl
@[simp] theorem State.setTickCount_nmiPending (v : Nat) : (st.setTickCount v).nmiPending = st.nmiPending := rfl
@[simp] theorem State.setTickCount_irqPending (v : Nat) : (st.setTickCount v).irqPending = st.irqPending := rfl
@[simp] theorem State.setTickCount_halted (v : Nat) : (st.setTickCount v).halted = st.halted := rfl
@[simp] theorem State.setTickCount_budget (v : Nat) : (st.setTickCount v).budget = st.budget := rfl
@[simp] theorem State.setTickCount_cycleCount (v : Nat) : (st.setTickCount v).cycleCount = st.cycleCount := rfl
@[simp] theorem State.setTickCount_didNmi (v : Nat) : (st.setTickCount v).didNmi = st.didNmi := rfl
@[simp] theorem State.setTickCount_didIrq (v : Nat) : (st.setTickCount v).didIrq = st.didIrq := rfl
@[simp] theorem State.setTickCount_tickCount (v : Nat) : (st.setTickCount v).tickCount = v := rfl
@[simp] theorem State.setTickCount_ram (v : Nat) : (st.setTickCount v).ram = st.ram := rfl
@[simp] theorem State.setTickCount_prgRam (v : Nat) : (st.setTickCount v).prgRam = st.prgRam := rfl
@[simp] theorem State.setTickCount_ppu (v : Nat) : (st.setTickCount v).ppu = st.ppu := rfl
@[simp] theorem State.setTickCount_apu (v : Nat) : (st.setTickCount v).apu = st.apu := rfl
@[simp] theorem State.setTickCount_pads (v : Nat) : (st.setTickCount v).pads = st.pads := rfl
@[simp] theorem State.setTickCount_launch (v : Nat) : (st.setTickCount v).launch = st.launch := rfl
@[simp] theorem State.setTickCount_hostCalls (v : Nat) : (st.setTickCount v).hostCalls = st.hostCalls := rfl

@[simp] theorem State.setRam_a (v : Memory) : (st.setRam v).a = st.a := rfl
@[simp] theorem State.setRam_x (v : Memory) : (st.setRam v).x = st.x := rfl
@[simp] theorem State.setRam_y (v : Memory) : (st.setRam v).y = st.y := rfl
@[simp] theorem State.setRam_s (v : Memory) : (st.setRam v).s = st.s := rfl
@[simp] theorem State.setRam_p (v : Memory) : (st.setRam v).p = st.p := rfl
@[simp] theorem State.setRam_pc (v : Memory) : (st.setRam v).pc = st.pc := rfl
@[simp] theorem State.setRam_nmiPending (v : Memory) : (st.setRam v).nmiPending = st.nmiPending := rfl
@[simp] theorem State.setRam_irqPending (v : Memory) : (st.setRam v).irqPending = st.irqPending := rfl
@[simp] theorem State.setRam_halted (v : Memory) : (st.setRam v).halted = st.halted := rfl
@[simp] theorem State.setRam_budget (v : Memory) : (st.setRam v).budget = st.budget := rfl
@[simp] theorem State.setRam_cycleCount (v : Memory) : (st.setRam v).cycleCount = st.cycleCount := rfl
@[simp] theorem State.setRam_didNmi (v : Memory) : (st.setRam v).didNmi = st.didNmi := rfl
@[simp] theorem State.setRam_didIrq (v : Memory) : (st.setRam v).didIrq = st.didIrq := rfl
@[simp] theorem State.setRam_tickCount (v : Memory) : (st.setRam v).tickCount = st.tickCount := rfl
@[simp] theorem State.setRam_ram (v : Memory) : (st.setRam v).ram = v := rfl
@[simp] theorem State.setRam_prgRam (v : Memory) : (st.setRam v).prgRam = st.prgRam := rfl
@[simp] theorem State.setRam_ppu (v : Memory) : (st.setRam v).ppu = st.ppu := rfl
@[simp] theorem State.setRam_apu (v : Memory) : (st.setRam v).apu = st.apu := rfl
@[simp] theorem State.setRam_pads (v : Memory) : (st.setRam v).pads = st.pads := rfl
@[simp] theorem State.setRam_launch (v : Memory) : (st.setRam v).launch = st.launch := rfl
@[simp] theorem State.setRam_hostCalls (v : Memory) : (st.setRam v).hostCalls = st.hostCalls := rfl

@[simp] theorem State.setPrgRam_a (v : Memory) : (st.setPrgRam v).a = st.a := rfl
@[simp] theorem State.setPrgRam_x (v : Memory) : (st.setPrgRam v).x = st.x := rfl
@[simp] theorem State.setPrgRam_y (v : Memory) : (st.setPrgRam v).y = st.y := rfl
@[simp] theorem State.setPrgRam_s (v : Memory) : (st.setPrgRam v).s = st.s := rfl
@[simp] theorem State.setPrgRam_p (v : Memory) : (st.setPrgRam v).p = st.p := rfl
@[simp] theorem State.setPrgRam_pc (v : Memory) : (st.setPrgRam v).pc = st.pc := rfl
@[simp] theorem State.setPrgRam_nmiPending (v : Memory) : (st.setPrgRam v).nmiPending = st.nmiPending := rfl
@[simp] theorem State.setPrgRam_irqPending (v : Memory) : (st.setPrgRam v).irqPending = st.irqPending := rfl
@[simp] theorem State.setPrgRam_halted (v : Memory) : (st.setPrgRam v).halted = st.halted := rfl
@[simp] theorem State.setPrgRam_budget (v : Memory) : (st.setPrgRam v).budget = st.budget := rfl
@[simp] theorem State.setPrgRam_cycleCount (v : Memory) : (st.setPrgRam v).cycleCount = st.cycleCount := rfl
@[simp] theorem State.setPrgRam_didNmi (v : Memory) : (st.setPrgRam v).didNmi = st.didNmi := rfl
@[simp] theorem State.setPrgRam_didIrq (v : Memory) : (st.setPrgRam v).didIrq = st.didIrq := rfl
@[simp] theorem State.setPrgRam_tickCount (v : Memory) : (st.setPrgRam v).tickCount = st.tickCount := rfl
@[simp] theorem State.setPrgRam_ram (v : Memory) : (st.setPrgRam v).ram = st.ram := rfl
@[simp] theorem State.setPrgRam_prgRam (v : Memory) : (st.setPrgRam v).prgRam = v := rfl
@[simp] theorem State.setPrgRam_ppu (v : Memory) : (st.setPrgRam v).ppu = st.ppu := rfl
@[simp] theorem State.setPrgRam_apu (v : Memory) : (st.setPrgRam v).apu = st.apu := rfl
@[simp] theorem State.setPrgRam_pads (v : Memory) : (st.setPrgRam v).pads = st.pads := rfl
@[simp] theorem State.setPrgRam_launch (v : Memory) : (st.setPrgRam v).launch = st.launch := rfl
@[simp] theorem State.setPrgRam_hostCalls (v : Memory) : (st.setPrgRam v).hostCalls = st.hostCalls := rfl

@[simp] theorem State.setPpu_a (v : Ppu) : (st.setPpu v).a = st.a := rfl
@[simp] theorem State.setPpu_x (v : Ppu) : (st.setPpu v).x = st.x := rfl
@[simp] theorem State.setPpu_y (v : Ppu) : (st.setPpu v).y = st.y := rfl
@[simp] theorem State.setPpu_s (v : Ppu) : (st.setPpu v).s = st.s := rfl
@[simp] theorem State.setPpu_p (v : Ppu) : (st.setPpu v).p = st.p := rfl
@[simp] theorem State.setPpu_pc (v : Ppu) : (st.setPpu v).pc = st.pc := rfl
@[simp] theorem State.setPpu_nmiPending (v : Ppu) : (st.setPpu v).nmiPending = st.nmiPending := rfl
@[simp] theorem State.setPpu_irqPending (v : Ppu) : (st.setPpu v).irqPending = st.irqPending := rfl
@[simp] theorem State.setPpu_halted (v : Ppu) : (st.setPpu v).halted = st.halted := rfl
@[simp] theorem State.setPpu_budget (v : Ppu) : (st.setPpu v).budget = st.budget := rfl
@[simp] theorem State.setPpu_cycleCount (v : Ppu) : (st.setPpu v).cycleCount = st.cycleCount := rfl
@[simp] theorem State.setPpu_didNmi (v : Ppu) : (st.setPpu v).didNmi = st.didNmi := rfl
@[simp] theorem State.setPpu_didIrq (v : Ppu) : (st.setPpu v).didIrq = st.didIrq := rfl
@[simp] theorem State.setPpu_tickCount (v : Ppu) : (st.setPpu v).tickCount = st.tickCount := rfl
@[simp] theorem State.setPpu_ram (v : Ppu) : (st.setPpu v).ram = st.ram := rfl
@[simp] theorem State.setPpu_prgRam (v : Ppu) : (st.setPpu v).prgRam = st.prgRam := rfl
@[simp] theorem State.setPpu_ppu (v : Ppu) : (st.setPpu v).ppu = v := rfl
@[simp] theorem State.setPpu_apu (v : Ppu) : (st.setPpu v).apu = st.apu := rfl
@[simp] theorem State.setPpu_pads (v : Ppu) : (st.setPpu v).pads = st.pads := rfl
@[simp] theorem State.setPpu_launch (v : Ppu) : (st.setPpu v).launch = st.launch := rfl
@[simp] theorem State.setPpu_hostCalls (v : Ppu) : (st.setPpu v).hostCalls = st.hostCalls := rfl

@[simp] theorem State.setApu_a (v : Apu) : (st.setApu v).a = st.a := rfl
@[simp] theorem State.setApu_x (v : Apu) : (st.setApu v).x = st.x := rfl
@[simp] theorem State.setApu_y (v : Apu) : (st.setApu v).y = st.y := rfl
@[simp] theorem State.setApu_s (v : Apu) : (st.setApu v).s = st.s := rfl
@[simp] theorem State.setApu_p (v : Apu) : (st.setApu v).p = st.p := rfl
@[simp] theorem State.setApu_pc (v : Apu) : (st.setApu v).pc = st.pc := rfl
@[simp] theorem State.setApu_nmiPending (v : Apu) : (st.setApu v).nmiPending = st.nmiPending := rfl
@[simp] theorem State.setApu_irqPending (v : Apu) : (st.setApu v).irqPending = st.irqPending := rfl
@[simp] theorem State.setApu_halted (v : Apu) : (st.setApu v).halted = st.halted := rfl
@[simp] theorem State.setApu_budget (v : Apu) : (st.setApu v).budget = st.budget := rfl
@[simp] theorem State.setApu_cycleCount (v : Apu) : (st.setApu v).cycleCount = st.cycleCount := rfl
@[simp] theorem State.setApu_didNmi (v : Apu) : (st.setApu v).didNmi = st.didNmi := rfl
@[simp] theorem State.setApu_didIrq (v : Apu) : (st.setApu v).didIrq = st.didIrq := rfl
@[simp] theorem State.setApu_tickCount (v : Apu) : (st.setApu v).tickCount = st.tickCount := rfl
@[simp] theorem State.setApu_ram (v : Apu) : (st.setApu v).ram = st.ram := rfl
@[simp] theorem State.setApu_prgRam (v : Apu) : (st.setApu v).prgRam = st.prgRam := rfl
@[simp] theorem State.setApu_ppu (v : Apu) : (st.setApu v).ppu = st.ppu := rfl
@[simp] theorem State.setApu_apu (v : Apu) : (st.setApu v).apu = v := rfl
@[simp] theorem State.setApu_pads (v : Apu) : (st.setApu v).pads = st.pads := rfl
@[simp] theorem State.setApu_launch (v : Apu) : (st.setApu v).launch = st.launch := rfl
@[simp] theorem State.setApu_hostCalls (v : Apu) : (st.setApu v).hostCalls = st.hostCalls := rfl

@[simp] theorem State.setPads_a (v : Pads) : (st.setPads v).a = st.a := rfl
@[simp] theorem State.setPads_x (v : Pads) : (st.setPads v).x = st.x := rfl
@[simp] theorem State.setPads_y (v : Pads) : (st.setPads v).y = st.y := rfl
@[simp] theorem State.setPads_s (v : Pads) : (st.setPads v).s = st.s := rfl
@[simp] theorem State.setPads_p (v : Pads) : (st.setPads v).p = st.p := rfl
@[simp] theorem State.setPads_pc (v : Pads) : (st.setPads v).pc = st.pc := rfl
@[simp] theorem State.setPads_nmiPending (v : Pads) : (st.setPads v).nmiPending = st.nmiPending := rfl
@[simp] theorem State.setPads_irqPending (v : Pads) : (st.setPads v).irqPending = st.irqPending := rfl
@[simp] theorem State.setPads_halted (v : Pads) : (st.setPads v).halted = st.halted := rfl
@[simp] theorem State.setPads_budget (v : Pads) : (st.setPads v).budget = st.budget := rfl
@[simp] theorem State.setPads_cycleCount (v : Pads) : (st.setPads v).cycleCount = st.cycleCount := rfl
@[simp] theorem State.setPads_didNmi (v : Pads) : (st.setPads v).didNmi = st.didNmi := rfl
@[simp] theorem State.setPads_didIrq (v : Pads) : (st.setPads v).didIrq = st.didIrq := rfl
@[simp] theorem State.setPads_tickCount (v : Pads) : (st.setPads v).tickCount = st.tickCount := rfl
@[simp] theorem State.setPads_ram (v : Pads) : (st.setPads v).ram = st.ram := rfl
@[simp] theorem State.setPads_prgRam (v : Pads) : (st.setPads v).prgRam = st.prgRam := rfl
@[simp] theorem State.setPads_ppu (v : Pads) : (st.setPads v).ppu = st.ppu := rfl
@[simp] theorem State.setPads_apu (v : Pads) : (st.setPads v).apu = st.apu := rfl
@[simp] theorem State.setPads_pads (v : Pads) : (st.setPads v).pads = v := rfl
@[simp] theorem State.setPads_launch (v : Pads) : (st.setPads v).launch = st.launch := rfl
@[simp] theorem State.setPads_hostCalls (v : Pads) : (st.setPads v).hostCalls = st.hostCalls := rfl

@[simp] theorem State.setHostCalls_a (v : List (List HostCall)) : (st.setHostCalls v).a = st.a := rfl
@[simp] theorem State.setHostCalls_x (v : List (List HostCall)) : (st.setHostCalls v).x = st.x := rfl
@[simp] theorem State.setHostCalls_y (v : List (List HostCall)) : (st.setHostCalls v).y = st.y := rfl
@[simp] theorem State.setHostCalls_s (v : List (List HostCall)) : (st.setHostCalls v).s = st.s := rfl
@[simp] theorem State.setHostCalls_p (v : List (List HostCall)) : (st.setHostCalls v).p = st.p := rfl
@[simp] theorem State.setHostCalls_pc (v : List (List HostCall)) : (st.setHostCalls v).pc = st.pc := rfl
@[simp] theorem State.setHostCalls_nmiPending (v : List (List HostCall)) : (st.setHostCalls v).nmiPending = st.nmiPending := rfl
@[simp] theorem State.setHostCalls_irqPending (v : List (List HostCall)) : (st.setHostCalls v).irqPending = st.irqPending := rfl
@[simp] theorem State.setHostCalls_halted (v : List (List HostCall)) : (st.setHostCalls v).halted = st.halted := rfl
@[simp] theorem State.setHostCalls_budget (v : List (List HostCall)) : (st.setHostCalls v).budget = st.budget := rfl
@[simp] theorem State.setHostCalls_cycleCount (v : List (List HostCall)) : (st.setHostCalls v).cycleCount = st.cycleCount := rfl
@[simp] theorem State.setHostCalls_didNmi (v : List (List HostCall)) : (st.setHostCalls v).didNmi = st.didNmi := rfl
@[simp] theorem State.setHostCalls_didIrq (v : List (List HostCall)) : (st.setHostCalls v).didIrq = st.didIrq := rfl
@[simp] theorem State.setHostCalls_tickCount (v : List (List HostCall)) : (st.setHostCalls v).tickCount = st.tickCount := rfl
@[simp] theorem State.setHostCalls_ram (v : List (List HostCall)) : (st.setHostCalls v).ram = st.ram := rfl
@[simp] theorem State.setHostCalls_prgRam (v : List (List HostCall)) : (st.setHostCalls v).prgRam = st.prgRam := rfl
@[simp] theorem State.setHostCalls_ppu (v : List (List HostCall)) : (st.setHostCalls v).ppu = st.ppu := rfl
@[simp] theorem State.setHostCalls_apu (v : List (List HostCall)) : (st.setHostCalls v).apu = st.apu := rfl
@[simp] theorem State.setHostCalls_pads (v : List (List HostCall)) : (st.setHostCalls v).pads = st.pads := rfl
@[simp] theorem State.setHostCalls_launch (v : List (List HostCall)) : (st.setHostCalls v).launch = st.launch := rfl
@[simp] theorem State.setHostCalls_hostCalls (v : List (List HostCall)) : (st.setHostCalls v).hostCalls = v := rfl

end Sys2Proof.Machine
end

