-- ==== Sys2Proof/Laws/Bus.lean ====
section
/-! SUPPORT. The laws of the bus: where the fixed addresses lead, everything a read and a write can change, and
what reading a byte of memory gives after a write. The provers cite these and do not unfold `busRead` and
`busWrite`. -/

namespace Sys2Proof.Machine

/-! ## Routes -/

/-- R48: page 0 is RAM. -/
@[simp] theorem route_zext16 (c : Cartridge) (b : Byte) : route c (zext16 b) = .ram b.toNat := by
  have h := b.isLt
  simp only [route, toNat_zext16]
  rw [if_pos (by omega), Nat.mod_eq_of_lt (by omega)]

theorem toNat_stackAddr (s : Byte) : (stackAddr s).toNat = 256 + s.toNat := by
  have h := s.isLt
  have e := Nat.two_pow_add_eq_or_of_lt (i := 8) h 1
  simp only [stackAddr, BitVec.toNat_or, toNat_zext16]
  simpa using e.symm

/-- R11, R48: page 1 is RAM, and S the offset in it. -/
@[simp] theorem route_stackAddr (c : Cartridge) (s : Byte) : route c (stackAddr s) = .ram (256 + s.toNat) := by
  have h := s.isLt
  simp only [route, toNat_stackAddr]
  rw [if_pos (by omega), Nat.mod_eq_of_lt (by omega)]

/-- R46: from `0x4020` up the cartridge answers. -/
theorem route_high (c : Cartridge) {addr : Addr} (h : 0x4020 ≤ addr.toNat) : route c addr = c.route addr.toNat := by
  unfold route
  simp only
  rw [if_neg (by omega), if_neg (by omega), if_neg (by omega), if_neg (by omega), if_neg (by omega), if_neg (by omega)]

/-- R270: the cartridge is PRG-RAM, PRG-ROM or nothing. -/
theorem Cartridge.route_cases (c : Cartridge) (n : Nat) :
    (∃ k, c.route n = .prgRam k) ∨ (∃ k, c.route n = .prgRom k) ∨ c.route n = .nothing := by
  unfold Cartridge.route
  split
  · split
    · simp
    · split
      · split <;> simp
      · simp
  · simp

/-! ## Reads -/

/-- R252, R50: all a read can change is the PPU and the controller bytes. -/
theorem busRead_cases (addr : Addr) (st : State) :
    (busRead addr st).2 = st
      ∨ (∃ r, route st.launch.cart addr = .ppu r
          ∧ (busRead addr st).2 = st.setPpu (st.ppu.readReg st.launch.cart r).2)
      ∨ ∃ q, route st.launch.cart addr = .pad q ∧ (busRead addr st).2 = st.setPads (st.pads.read q).2 := by
  unfold busRead
  split <;> simp_all

/-- R45, R50: a read that lands neither on the PPU nor on a controller changes nothing. -/
theorem busRead_state_of_route {addr : Addr} {st : State} (h1 : ∀ r, route st.launch.cart addr ≠ .ppu r)
    (h2 : ∀ q, route st.launch.cart addr ≠ .pad q) : (busRead addr st).2 = st := by
  rcases busRead_cases addr st with h | ⟨r, h, -⟩ | ⟨q, h, -⟩
  · exact h
  · exact absurd h (h1 r)
  · exact absurd h (h2 q)

theorem busRead_state_of_storage {addr : Addr} {st : State} (h : (route st.launch.cart addr).isStorage = true) :
    (busRead addr st).2 = st := by
  apply busRead_state_of_route <;> intro _ h' <;> simp [h', Target.isStorage] at h

@[simp] theorem busRead_zext16 (b : Byte) (st : State) : busRead (zext16 b) st = (st.ram.read b.toNat, st) := by
  simp [busRead]

@[simp] theorem busRead_stackAddr (s : Byte) (st : State) :
    busRead (stackAddr s) st = (st.ram.read (256 + s.toNat), st) := by
  simp [busRead]

/-- R271: "Reads have no side effects" in the cartridge. -/
theorem busRead_state_high {addr : Addr} (st : State) (h : 0x4020 ≤ addr.toNat) : (busRead addr st).2 = st := by
  apply busRead_state_of_route <;> intro _ h' <;> rw [route_high _ h] at h' <;>
    rcases st.launch.cart.route_cases addr.toNat with ⟨k, hk⟩ | ⟨k, hk⟩ | hk <;> simp [hk] at h'

@[simp] theorem busRead_a (addr : Addr) (st : State) : (busRead addr st).2.a = st.a := by
  rcases busRead_cases addr st with h | ⟨_, -, h⟩ | ⟨_, -, h⟩ <;> simp [h]
@[simp] theorem busRead_x (addr : Addr) (st : State) : (busRead addr st).2.x = st.x := by
  rcases busRead_cases addr st with h | ⟨_, -, h⟩ | ⟨_, -, h⟩ <;> simp [h]
@[simp] theorem busRead_y (addr : Addr) (st : State) : (busRead addr st).2.y = st.y := by
  rcases busRead_cases addr st with h | ⟨_, -, h⟩ | ⟨_, -, h⟩ <;> simp [h]
@[simp] theorem busRead_s (addr : Addr) (st : State) : (busRead addr st).2.s = st.s := by
  rcases busRead_cases addr st with h | ⟨_, -, h⟩ | ⟨_, -, h⟩ <;> simp [h]
@[simp] theorem busRead_p (addr : Addr) (st : State) : (busRead addr st).2.p = st.p := by
  rcases busRead_cases addr st with h | ⟨_, -, h⟩ | ⟨_, -, h⟩ <;> simp [h]
@[simp] theorem busRead_pc (addr : Addr) (st : State) : (busRead addr st).2.pc = st.pc := by
  rcases busRead_cases addr st with h | ⟨_, -, h⟩ | ⟨_, -, h⟩ <;> simp [h]
@[simp] theorem busRead_nmiPending (addr : Addr) (st : State) : (busRead addr st).2.nmiPending = st.nmiPending := by
  rcases busRead_cases addr st with h | ⟨_, -, h⟩ | ⟨_, -, h⟩ <;> simp [h]
@[simp] theorem busRead_irqPending (addr : Addr) (st : State) : (busRead addr st).2.irqPending = st.irqPending := by
  rcases busRead_cases addr st with h | ⟨_, -, h⟩ | ⟨_, -, h⟩ <;> simp [h]
@[simp] theorem busRead_halted (addr : Addr) (st : State) : (busRead addr st).2.halted = st.halted := by
  rcases busRead_cases addr st with h | ⟨_, -, h⟩ | ⟨_, -, h⟩ <;> simp [h]
@[simp] theorem busRead_budget (addr : Addr) (st : State) : (busRead addr st).2.budget = st.budget := by
  rcases busRead_cases addr st with h | ⟨_, -, h⟩ | ⟨_, -, h⟩ <;> simp [h]
@[simp] theorem busRead_cycleCount (addr : Addr) (st : State) : (busRead addr st).2.cycleCount = st.cycleCount := by
  rcases busRead_cases addr st with h | ⟨_, -, h⟩ | ⟨_, -, h⟩ <;> simp [h]
@[simp] theorem busRead_didNmi (addr : Addr) (st : State) : (busRead addr st).2.didNmi = st.didNmi := by
  rcases busRead_cases addr st with h | ⟨_, -, h⟩ | ⟨_, -, h⟩ <;> simp [h]
@[simp] theorem busRead_didIrq (addr : Addr) (st : State) : (busRead addr st).2.didIrq = st.didIrq := by
  rcases busRead_cases addr st with h | ⟨_, -, h⟩ | ⟨_, -, h⟩ <;> simp [h]
@[simp] theorem busRead_tickCount (addr : Addr) (st : State) : (busRead addr st).2.tickCount = st.tickCount := by
  rcases busRead_cases addr st with h | ⟨_, -, h⟩ | ⟨_, -, h⟩ <;> simp [h]
@[simp] theorem busRead_ram (addr : Addr) (st : State) : (busRead addr st).2.ram = st.ram := by
  rcases busRead_cases addr st with h | ⟨_, -, h⟩ | ⟨_, -, h⟩ <;> simp [h]
@[simp] theorem busRead_prgRam (addr : Addr) (st : State) : (busRead addr st).2.prgRam = st.prgRam := by
  rcases busRead_cases addr st with h | ⟨_, -, h⟩ | ⟨_, -, h⟩ <;> simp [h]
@[simp] theorem busRead_apu (addr : Addr) (st : State) : (busRead addr st).2.apu = st.apu := by
  rcases busRead_cases addr st with h | ⟨_, -, h⟩ | ⟨_, -, h⟩ <;> simp [h]
@[simp] theorem busRead_launch (addr : Addr) (st : State) : (busRead addr st).2.launch = st.launch := by
  rcases busRead_cases addr st with h | ⟨_, -, h⟩ | ⟨_, -, h⟩ <;> simp [h]
@[simp] theorem busRead_hostCalls (addr : Addr) (st : State) : (busRead addr st).2.hostCalls = st.hostCalls := by
  rcases busRead_cases addr st with h | ⟨_, -, h⟩ | ⟨_, -, h⟩ <;> simp [h]

@[simp] theorem busRead_flag (addr : Addr) (st : State) (f : Flag) : (busRead addr st).2.flag f = st.flag f := by
  simp [State.flag]

/-! ## What a byte of memory reads as -/

/-- The byte a storage address reads as depends on RAM, PRG-RAM and the launch parameters alone. -/
theorem busPeek_congr {addr : Addr} {st t : State} (hr : t.ram = st.ram) (hp : t.prgRam = st.prgRam)
    (hl : t.launch = st.launch) (h : (route st.launch.cart addr).isStorage = true) :
    busPeek addr t = busPeek addr st := by
  unfold busPeek busRead
  rw [hl]
  split <;> simp_all [Target.isStorage]

theorem KeepsMemory.of_eq {st t : State} (hr : t.ram = st.ram) (hp : t.prgRam = st.prgRam)
    (hl : t.launch = st.launch) : KeepsMemory st t := fun _ h => busPeek_congr hr hp hl h

/-! ## Writes -/

@[simp] theorem dmaCopy_zero (page : Byte) (i : Nat) (st : State) : dmaCopy page 0 i st = st := rfl

@[simp] theorem dmaCopy_a (page : Byte) (fuel i : Nat) (st : State) : (dmaCopy page fuel i st).a = st.a := by
  induction fuel generalizing i st with
  | zero => rfl
  | succ n ih => simp [dmaCopy, ih]
@[simp] theorem dmaCopy_x (page : Byte) (fuel i : Nat) (st : State) : (dmaCopy page fuel i st).x = st.x := by
  induction fuel generalizing i st with
  | zero => rfl
  | succ n ih => simp [dmaCopy, ih]
@[simp] theorem dmaCopy_y (page : Byte) (fuel i : Nat) (st : State) : (dmaCopy page fuel i st).y = st.y := by
  induction fuel generalizing i st with
  | zero => rfl
  | succ n ih => simp [dmaCopy, ih]
@[simp] theorem dmaCopy_s (page : Byte) (fuel i : Nat) (st : State) : (dmaCopy page fuel i st).s = st.s := by
  induction fuel generalizing i st with
  | zero => rfl
  | succ n ih => simp [dmaCopy, ih]
@[simp] theorem dmaCopy_p (page : Byte) (fuel i : Nat) (st : State) : (dmaCopy page fuel i st).p = st.p := by
  induction fuel generalizing i st with
  | zero => rfl
  | succ n ih => simp [dmaCopy, ih]
@[simp] theorem dmaCopy_pc (page : Byte) (fuel i : Nat) (st : State) : (dmaCopy page fuel i st).pc = st.pc := by
  induction fuel generalizing i st with
  | zero => rfl
  | succ n ih => simp [dmaCopy, ih]
@[simp] theorem dmaCopy_nmiPending (page : Byte) (fuel i : Nat) (st : State) : (dmaCopy page fuel i st).nmiPending = st.nmiPending := by
  induction fuel generalizing i st with
  | zero => rfl
  | succ n ih => simp [dmaCopy, ih]
@[simp] theorem dmaCopy_irqPending (page : Byte) (fuel i : Nat) (st : State) : (dmaCopy page fuel i st).irqPending = st.irqPending := by
  induction fuel generalizing i st with
  | zero => rfl
  | succ n ih => simp [dmaCopy, ih]
@[simp] theorem dmaCopy_halted (page : Byte) (fuel i : Nat) (st : State) : (dmaCopy page fuel i st).halted = st.halted := by
  induction fuel generalizing i st with
  | zero => rfl
  | succ n ih => simp [dmaCopy, ih]
@[simp] theorem dmaCopy_budget (page : Byte) (fuel i : Nat) (st : State) : (dmaCopy page fuel i st).budget = st.budget := by
  induction fuel generalizing i st with
  | zero => rfl
  | succ n ih => simp [dmaCopy, ih]
@[simp] theorem dmaCopy_cycleCount (page : Byte) (fuel i : Nat) (st : State) : (dmaCopy page fuel i st).cycleCount = st.cycleCount := by
  induction fuel generalizing i st with
  | zero => rfl
  | succ n ih => simp [dmaCopy, ih]
@[simp] theorem dmaCopy_didNmi (page : Byte) (fuel i : Nat) (st : State) : (dmaCopy page fuel i st).didNmi = st.didNmi := by
  induction fuel generalizing i st with
  | zero => rfl
  | succ n ih => simp [dmaCopy, ih]
@[simp] theorem dmaCopy_didIrq (page : Byte) (fuel i : Nat) (st : State) : (dmaCopy page fuel i st).didIrq = st.didIrq := by
  induction fuel generalizing i st with
  | zero => rfl
  | succ n ih => simp [dmaCopy, ih]
@[simp] theorem dmaCopy_tickCount (page : Byte) (fuel i : Nat) (st : State) : (dmaCopy page fuel i st).tickCount = st.tickCount := by
  induction fuel generalizing i st with
  | zero => rfl
  | succ n ih => simp [dmaCopy, ih]
@[simp] theorem dmaCopy_ram (page : Byte) (fuel i : Nat) (st : State) : (dmaCopy page fuel i st).ram = st.ram := by
  induction fuel generalizing i st with
  | zero => rfl
  | succ n ih => simp [dmaCopy, ih]
@[simp] theorem dmaCopy_prgRam (page : Byte) (fuel i : Nat) (st : State) : (dmaCopy page fuel i st).prgRam = st.prgRam := by
  induction fuel generalizing i st with
  | zero => rfl
  | succ n ih => simp [dmaCopy, ih]
@[simp] theorem dmaCopy_apu (page : Byte) (fuel i : Nat) (st : State) : (dmaCopy page fuel i st).apu = st.apu := by
  induction fuel generalizing i st with
  | zero => rfl
  | succ n ih => simp [dmaCopy, ih]
@[simp] theorem dmaCopy_launch (page : Byte) (fuel i : Nat) (st : State) : (dmaCopy page fuel i st).launch = st.launch := by
  induction fuel generalizing i st with
  | zero => rfl
  | succ n ih => simp [dmaCopy, ih]
@[simp] theorem dmaCopy_hostCalls (page : Byte) (fuel i : Nat) (st : State) : (dmaCopy page fuel i st).hostCalls = st.hostCalls := by
  induction fuel generalizing i st with
  | zero => rfl
  | succ n ih => simp [dmaCopy, ih]
@[simp] theorem broadcast_dma_a (st : State) : (broadcast .ppuDma st).a = st.a := by
  simp [broadcast, ppuOnDma, State.cpuOnSignal]
@[simp] theorem broadcast_dma_x (st : State) : (broadcast .ppuDma st).x = st.x := by
  simp [broadcast, ppuOnDma, State.cpuOnSignal]
@[simp] theorem broadcast_dma_y (st : State) : (broadcast .ppuDma st).y = st.y := by
  simp [broadcast, ppuOnDma, State.cpuOnSignal]
@[simp] theorem broadcast_dma_s (st : State) : (broadcast .ppuDma st).s = st.s := by
  simp [broadcast, ppuOnDma, State.cpuOnSignal]
@[simp] theorem broadcast_dma_p (st : State) : (broadcast .ppuDma st).p = st.p := by
  simp [broadcast, ppuOnDma, State.cpuOnSignal]
@[simp] theorem broadcast_dma_pc (st : State) : (broadcast .ppuDma st).pc = st.pc := by
  simp [broadcast, ppuOnDma, State.cpuOnSignal]
@[simp] theorem broadcast_dma_nmiPending (st : State) : (broadcast .ppuDma st).nmiPending = st.nmiPending := by
  simp [broadcast, ppuOnDma, State.cpuOnSignal]
@[simp] theorem broadcast_dma_irqPending (st : State) : (broadcast .ppuDma st).irqPending = st.irqPending := by
  simp [broadcast, ppuOnDma, State.cpuOnSignal]
@[simp] theorem broadcast_dma_budget (st : State) : (broadcast .ppuDma st).budget = st.budget := by
  simp [broadcast, ppuOnDma, State.cpuOnSignal]
@[simp] theorem broadcast_dma_cycleCount (st : State) : (broadcast .ppuDma st).cycleCount = st.cycleCount := by
  simp [broadcast, ppuOnDma, State.cpuOnSignal]
@[simp] theorem broadcast_dma_didNmi (st : State) : (broadcast .ppuDma st).didNmi = st.didNmi := by
  simp [broadcast, ppuOnDma, State.cpuOnSignal]
@[simp] theorem broadcast_dma_didIrq (st : State) : (broadcast .ppuDma st).didIrq = st.didIrq := by
  simp [broadcast, ppuOnDma, State.cpuOnSignal]
@[simp] theorem broadcast_dma_tickCount (st : State) : (broadcast .ppuDma st).tickCount = st.tickCount := by
  simp [broadcast, ppuOnDma, State.cpuOnSignal]
@[simp] theorem broadcast_dma_launch (st : State) : (broadcast .ppuDma st).launch = st.launch := by
  simp [broadcast, ppuOnDma, State.cpuOnSignal]
@[simp] theorem broadcast_dma_hostCalls (st : State) : (broadcast .ppuDma st).hostCalls = st.hostCalls := by
  simp [broadcast, ppuOnDma, State.cpuOnSignal]
@[simp] theorem broadcast_dma_ram (st : State) : (broadcast .ppuDma st).ram = st.ram := by
  simp [broadcast, ppuOnDma, State.cpuOnSignal]
@[simp] theorem broadcast_dma_prgRam (st : State) : (broadcast .ppuDma st).prgRam = st.prgRam := by
  simp [broadcast, ppuOnDma, State.cpuOnSignal]
@[simp] theorem broadcast_dma_apu (st : State) : (broadcast .ppuDma st).apu = st.apu := by
  simp [broadcast, ppuOnDma, State.cpuOnSignal]
theorem broadcast_frc (m i : Bool) (st : State) :
    broadcast (.apuFrc m i) st = st.setApu (st.apu.setFrameMode m i) := rfl

@[simp] theorem busWrite_a (addr : Addr) (b : Byte) (st : State) : (busWrite addr b st).a = st.a := by
  unfold busWrite apuWrite
  split <;> (try split) <;> simp [broadcast_frc]
@[simp] theorem busWrite_x (addr : Addr) (b : Byte) (st : State) : (busWrite addr b st).x = st.x := by
  unfold busWrite apuWrite
  split <;> (try split) <;> simp [broadcast_frc]
@[simp] theorem busWrite_y (addr : Addr) (b : Byte) (st : State) : (busWrite addr b st).y = st.y := by
  unfold busWrite apuWrite
  split <;> (try split) <;> simp [broadcast_frc]
@[simp] theorem busWrite_s (addr : Addr) (b : Byte) (st : State) : (busWrite addr b st).s = st.s := by
  unfold busWrite apuWrite
  split <;> (try split) <;> simp [broadcast_frc]
@[simp] theorem busWrite_p (addr : Addr) (b : Byte) (st : State) : (busWrite addr b st).p = st.p := by
  unfold busWrite apuWrite
  split <;> (try split) <;> simp [broadcast_frc]
@[simp] theorem busWrite_pc (addr : Addr) (b : Byte) (st : State) : (busWrite addr b st).pc = st.pc := by
  unfold busWrite apuWrite
  split <;> (try split) <;> simp [broadcast_frc]
@[simp] theorem busWrite_nmiPending (addr : Addr) (b : Byte) (st : State) : (busWrite addr b st).nmiPending = st.nmiPending := by
  unfold busWrite apuWrite
  split <;> (try split) <;> simp [broadcast_frc]
@[simp] theorem busWrite_irqPending (addr : Addr) (b : Byte) (st : State) : (busWrite addr b st).irqPending = st.irqPending := by
  unfold busWrite apuWrite
  split <;> (try split) <;> simp [broadcast_frc]
@[simp] theorem busWrite_budget (addr : Addr) (b : Byte) (st : State) : (busWrite addr b st).budget = st.budget := by
  unfold busWrite apuWrite
  split <;> (try split) <;> simp [broadcast_frc]
@[simp] theorem busWrite_cycleCount (addr : Addr) (b : Byte) (st : State) : (busWrite addr b st).cycleCount = st.cycleCount := by
  unfold busWrite apuWrite
  split <;> (try split) <;> simp [broadcast_frc]
@[simp] theorem busWrite_didNmi (addr : Addr) (b : Byte) (st : State) : (busWrite addr b st).didNmi = st.didNmi := by
  unfold busWrite apuWrite
  split <;> (try split) <;> simp [broadcast_frc]
@[simp] theorem busWrite_didIrq (addr : Addr) (b : Byte) (st : State) : (busWrite addr b st).didIrq = st.didIrq := by
  unfold busWrite apuWrite
  split <;> (try split) <;> simp [broadcast_frc]
@[simp] theorem busWrite_tickCount (addr : Addr) (b : Byte) (st : State) : (busWrite addr b st).tickCount = st.tickCount := by
  unfold busWrite apuWrite
  split <;> (try split) <;> simp [broadcast_frc]
@[simp] theorem busWrite_launch (addr : Addr) (b : Byte) (st : State) : (busWrite addr b st).launch = st.launch := by
  unfold busWrite apuWrite
  split <;> (try split) <;> simp [broadcast_frc]
@[simp] theorem busWrite_hostCalls (addr : Addr) (b : Byte) (st : State) : (busWrite addr b st).hostCalls = st.hostCalls := by
  unfold busWrite apuWrite
  split <;> (try split) <;> simp [broadcast_frc]

@[simp] theorem busWrite_flag (addr : Addr) (b : Byte) (st : State) (f : Flag) :
    (busWrite addr b st).flag f = st.flag f := by
  simp [State.flag]

/-- R253: what a write does to RAM and PRG-RAM. -/
theorem busWrite_ram (addr : Addr) (b : Byte) (st : State) :
    (busWrite addr b st).ram =
      match route st.launch.cart addr with
      | .ram k => st.ram.write k b
      | _ => st.ram := by
  unfold busWrite apuWrite
  split <;> (try split) <;> simp_all [broadcast_frc]

theorem busWrite_prgRam (addr : Addr) (b : Byte) (st : State) :
    (busWrite addr b st).prgRam =
      match route st.launch.cart addr with
      | .prgRam k => st.prgRam.write k b
      | _ => st.prgRam := by
  unfold busWrite apuWrite
  split <;> (try split) <;> simp_all [broadcast_frc]

/-- A write to plain memory touches no device. -/
theorem busWrite_devices_of_storage {addr : Addr} {b : Byte} {st : State}
    (h : (route st.launch.cart addr).isStorage = true) : SameDevices st (busWrite addr b st) := by
  unfold busWrite
  split <;> simp_all [Target.isStorage] <;> constructor <;> simp

/-- R260, R262, R49: after a write every byte of memory reads as before but the one written. -/
theorem busWrite_stores (addr : Addr) (b : Byte) (st : State) : StoresBytes [(addr, b)] st (busWrite addr b st) := by
  intro l hl
  simp only [List.find?_cons, List.find?_nil]
  unfold busPeek busRead
  simp only [busWrite_launch]
  cases hr : route st.launch.cart addr <;> cases hm : route st.launch.cart l <;>
    simp_all [Target.isStorage, Target.isWritable, busWrite_ram, busWrite_prgRam, Memory.read_write] <;>
    rename_i j k <;> by_cases hjk : j = k <;> simp [hjk]

end Sys2Proof.Machine
end

