-- ==== Sys2Proof/Laws/Decode.lean ====
section
/-! SUPPORT. The laws of the opcode map: its shape, the entry of each unassigned byte, and that every entry of
the map is the entry of an instruction with that opcode byte. -/

namespace Sys2Proof

/-- R88: 16 rows of 16 cells, so neither default of `cellOf` is ever reached. -/
theorem opcodeMap_shape :
    Decode.opcodeMap.length = 16 ∧ ∀ row ∈ Decode.opcodeMap, List.length row = 16 := by
  refine ⟨rfl, ?_⟩
  simp only [Decode.opcodeMap, List.cons_append, List.nil_append, List.forall_mem_cons, List.not_mem_nil]
  refine ⟨rfl, rfl, rfl, rfl, rfl, rfl, rfl, rfl, rfl, rfl, rfl, rfl, rfl, rfl, rfl, rfl, fun _ h => h.elim⟩

/-- R91: the map has no entry of its own exactly at the bytes R92 lists. -/
theorem isUnassigned_iff (op : Byte) : Machine.isUnassigned op = (cellOf op).isNone := by
  have e : op = BitVec.ofNat 8 op.toNat := by simp
  have hn : op.toNat < 256 := op.isLt
  generalize op.toNat = n at e hn
  subst e
  interval_cases n <;> rfl

/-- R70: where the map has an entry, `xxx_mode` plays no part. -/
theorem slotOf_cell {op : Byte} {s : Slot} (h : cellOf op = some s) (modes : XxxModes) : slotOf modes op = s := by
  simp [slotOf, h]

/-- R91, R92: what well-formedness says of an XXX. -/
theorem wellFormed_xxx (modes : XxxModes) (op : Byte) (f : XxxForm) :
    (Instr.xxx op f).WellFormed modes = true ↔ Machine.isUnassigned op = true ∧ modes.mode op = f.mode := by
  simp [Instr.WellFormed]

/-- R92: the default `xxx_mode` is R92's list. -/
theorem defaultXxxModes_mode (op : Byte) :
    Machine.defaultXxxModes.mode op = (Machine.listedXxxMode op).getD .imp := by
  simp [XxxModes.mode, Machine.defaultXxxModes]

/-- R92: the table entry of an unassigned byte. -/
theorem slotOf_xxx {op : Byte} (h : Machine.isUnassigned op = true) (modes : XxxModes) :
    slotOf modes op = xxxSlot op (modes.mode op) := by
  have : cellOf op = none := by simpa [isUnassigned_iff] using h
  simp [slotOf, this]

end Sys2Proof
end

