-- ==== Sys2Proof/Laws/Flags.lean ====
section
/-! SUPPORT. The flag updates and the other updates, one lemma per field, true by `rfl`: writing a flag leaves
every field but P, and an update of another field leaves every flag. -/

namespace Sys2Proof.Machine

variable (st : State)

@[simp] theorem State.setFlag_a (f : Flag) (b : Bool) : (st.setFlag f b).a = st.a := rfl
@[simp] theorem State.setFlag_x (f : Flag) (b : Bool) : (st.setFlag f b).x = st.x := rfl
@[simp] theorem State.setFlag_y (f : Flag) (b : Bool) : (st.setFlag f b).y = st.y := rfl
@[simp] theorem State.setFlag_s (f : Flag) (b : Bool) : (st.setFlag f b).s = st.s := rfl
@[simp] theorem State.setFlag_pc (f : Flag) (b : Bool) : (st.setFlag f b).pc = st.pc := rfl
@[simp] theorem State.setFlag_nmiPending (f : Flag) (b : Bool) : (st.setFlag f b).nmiPending = st.nmiPending := rfl
@[simp] theorem State.setFlag_irqPending (f : Flag) (b : Bool) : (st.setFlag f b).irqPending = st.irqPending := rfl
@[simp] theorem State.setFlag_halted (f : Flag) (b : Bool) : (st.setFlag f b).halted = st.halted := rfl
@[simp] theorem State.setFlag_budget (f : Flag) (b : Bool) : (st.setFlag f b).budget = st.budget := rfl
@[simp] theorem State.setFlag_cycleCount (f : Flag) (b : Bool) : (st.setFlag f b).cycleCount = st.cycleCount := rfl
@[simp] theorem State.setFlag_didNmi (f : Flag) (b : Bool) : (st.setFlag f b).didNmi = st.didNmi := rfl
@[simp] theorem State.setFlag_didIrq (f : Flag) (b : Bool) : (st.setFlag f b).didIrq = st.didIrq := rfl
@[simp] theorem State.setFlag_tickCount (f : Flag) (b : Bool) : (st.setFlag f b).tickCount = st.tickCount := rfl
@[simp] theorem State.setFlag_ram (f : Flag) (b : Bool) : (st.setFlag f b).ram = st.ram := rfl
@[simp] theorem State.setFlag_prgRam (f : Flag) (b : Bool) : (st.setFlag f b).prgRam = st.prgRam := rfl
@[simp] theorem State.setFlag_ppu (f : Flag) (b : Bool) : (st.setFlag f b).ppu = st.ppu := rfl
@[simp] theorem State.setFlag_apu (f : Flag) (b : Bool) : (st.setFlag f b).apu = st.apu := rfl
@[simp] theorem State.setFlag_pads (f : Flag) (b : Bool) : (st.setFlag f b).pads = st.pads := rfl
@[simp] theorem State.setFlag_launch (f : Flag) (b : Bool) : (st.setFlag f b).launch = st.launch := rfl
@[simp] theorem State.setFlag_hostCalls (f : Flag) (b : Bool) : (st.setFlag f b).hostCalls = st.hostCalls := rfl

@[simp] theorem State.setZN_a (v : Byte) : (st.setZN v).a = st.a := rfl
@[simp] theorem State.setZN_x (v : Byte) : (st.setZN v).x = st.x := rfl
@[simp] theorem State.setZN_y (v : Byte) : (st.setZN v).y = st.y := rfl
@[simp] theorem State.setZN_s (v : Byte) : (st.setZN v).s = st.s := rfl
@[simp] theorem State.setZN_pc (v : Byte) : (st.setZN v).pc = st.pc := rfl
@[simp] theorem State.setZN_nmiPending (v : Byte) : (st.setZN v).nmiPending = st.nmiPending := rfl
@[simp] theorem State.setZN_irqPending (v : Byte) : (st.setZN v).irqPending = st.irqPending := rfl
@[simp] theorem State.setZN_halted (v : Byte) : (st.setZN v).halted = st.halted := rfl
@[simp] theorem State.setZN_budget (v : Byte) : (st.setZN v).budget = st.budget := rfl
@[simp] theorem State.setZN_cycleCount (v : Byte) : (st.setZN v).cycleCount = st.cycleCount := rfl
@[simp] theorem State.setZN_didNmi (v : Byte) : (st.setZN v).didNmi = st.didNmi := rfl
@[simp] theorem State.setZN_didIrq (v : Byte) : (st.setZN v).didIrq = st.didIrq := rfl
@[simp] theorem State.setZN_tickCount (v : Byte) : (st.setZN v).tickCount = st.tickCount := rfl
@[simp] theorem State.setZN_ram (v : Byte) : (st.setZN v).ram = st.ram := rfl
@[simp] theorem State.setZN_prgRam (v : Byte) : (st.setZN v).prgRam = st.prgRam := rfl
@[simp] theorem State.setZN_ppu (v : Byte) : (st.setZN v).ppu = st.ppu := rfl
@[simp] theorem State.setZN_apu (v : Byte) : (st.setZN v).apu = st.apu := rfl
@[simp] theorem State.setZN_pads (v : Byte) : (st.setZN v).pads = st.pads := rfl
@[simp] theorem State.setZN_launch (v : Byte) : (st.setZN v).launch = st.launch := rfl
@[simp] theorem State.setZN_hostCalls (v : Byte) : (st.setZN v).hostCalls = st.hostCalls := rfl

/-- R20: Z, N and nothing else. -/
@[simp] theorem State.flag_setZN (v : Byte) (g : Flag) :
    (st.setZN v).flag g = if g = .z then v == 0 else if g = .n then v.getLsbD 7 else st.flag g := by
  have h : v.msb = v.getLsbD 7 := by simp [BitVec.msb_eq_getLsbD_last]
  cases g <;> simp [State.setZN, h]

@[simp] theorem State.flag_setA (v : Byte) (g : Flag) : (st.setA v).flag g = st.flag g := rfl
@[simp] theorem State.flag_setX (v : Byte) (g : Flag) : (st.setX v).flag g = st.flag g := rfl
@[simp] theorem State.flag_setY (v : Byte) (g : Flag) : (st.setY v).flag g = st.flag g := rfl
@[simp] theorem State.flag_setS (v : Byte) (g : Flag) : (st.setS v).flag g = st.flag g := rfl
@[simp] theorem State.flag_setPc (v : Addr) (g : Flag) : (st.setPc v).flag g = st.flag g := rfl
@[simp] theorem State.flag_setNmiPending (v : Bool) (g : Flag) : (st.setNmiPending v).flag g = st.flag g := rfl
@[simp] theorem State.flag_setIrqPending (v : Bool) (g : Flag) : (st.setIrqPending v).flag g = st.flag g := rfl
@[simp] theorem State.flag_setHalted (v : Bool) (g : Flag) : (st.setHalted v).flag g = st.flag g := rfl
@[simp] theorem State.flag_setBudget (v : Nat) (g : Flag) : (st.setBudget v).flag g = st.flag g := rfl
@[simp] theorem State.flag_setCycleCount (v : BitVec 64) (g : Flag) : (st.setCycleCount v).flag g = st.flag g := rfl
@[simp] theorem State.flag_setDidNmi (v : Bool) (g : Flag) : (st.setDidNmi v).flag g = st.flag g := rfl
@[simp] theorem State.flag_setDidIrq (v : Bool) (g : Flag) : (st.setDidIrq v).flag g = st.flag g := rfl
@[simp] theorem State.flag_setTickCount (v : Nat) (g : Flag) : (st.setTickCount v).flag g = st.flag g := rfl
@[simp] theorem State.flag_setRam (v : Memory) (g : Flag) : (st.setRam v).flag g = st.flag g := rfl
@[simp] theorem State.flag_setPrgRam (v : Memory) (g : Flag) : (st.setPrgRam v).flag g = st.flag g := rfl
@[simp] theorem State.flag_setPpu (v : Ppu) (g : Flag) : (st.setPpu v).flag g = st.flag g := rfl
@[simp] theorem State.flag_setApu (v : Apu) (g : Flag) : (st.setApu v).flag g = st.flag g := rfl
@[simp] theorem State.flag_setPads (v : Pads) (g : Flag) : (st.setPads v).flag g = st.flag g := rfl
@[simp] theorem State.flag_setHostCalls (v : List (List HostCall)) (g : Flag) : (st.setHostCalls v).flag g = st.flag g := rfl

end Sys2Proof.Machine
end

