-- ==== Sys2Proof/Laws/Ops.lean ====
section
/-! SUPPORT. One law per shared operation: the stack, the vectors, taking an exception and returning from one,
the addressing modes. Each says all the operation does, as an equation. -/

namespace Sys2Proof.Machine

/-! ## The stack (R15, R16) -/

theorem push_eq (v : Byte) (st : State) :
    push v st = (st.setRam (st.ram.write (256 + st.s.toNat) v)).setS (st.s - 1) := by
  simp [push, busWrite]

theorem pull_eq (st : State) : pull st = (st.ram.read (256 + (st.s + 1).toNat), st.setS (st.s + 1)) := by
  simp [pull]

theorem push16_eq (w : Addr) (st : State) :
    push16 w st =
      (st.setRam ((st.ram.write (256 + st.s.toNat) (hi8 w)).write (256 + (st.s - 1).toNat) (lo8 w))).setS
        (st.s - 2) := by
  have h : st.s - 1 - 1 = st.s - 2 := by bv_omega
  rw [← h, push16, push_eq, push_eq]
  rfl

theorem pull16_eq (st : State) :
    pull16 st =
      (word (st.ram.read (256 + (st.s + 2).toNat)) (st.ram.read (256 + (st.s + 1).toNat)), st.setS (st.s + 2)) := by
  have h : st.s + 1 + 1 = st.s + 2 := by bv_omega
  rw [← h, pull16, pull_eq, pull_eq]
  rfl

/-- Two different stack bytes are two different bytes of RAM. -/
theorem stack_ne {a b : Byte} (h : a ≠ b) : 256 + a.toNat ≠ 256 + b.toNat := by
  intro e
  exact h (BitVec.eq_of_toNat_eq (by omega))

/-- R15, R171: two bytes pushed are two bytes stored. -/
theorem StoresBytes.two {a b : Byte} {st t : State} (v w : Byte) (hab : a ≠ b)
    (hr : t.ram = (st.ram.write (256 + a.toNat) v).write (256 + b.toNat) w) (hp : t.prgRam = st.prgRam)
    (hl : t.launch = st.launch) : StoresBytes [(stackAddr a, v), (stackAddr b, w)] st t := by
  intro addr h
  simp only [List.find?_cons, List.find?_nil, route_stackAddr]
  unfold busPeek busRead
  rw [hl]
  have := stack_ne hab
  rcases hm : route st.launch.cart addr with k | k | k | k | k | k | _ <;>
    try (simp_all [Target.isStorage, Target.isWritable]; done)
  simp only [hr, Memory.read_write, Target.isWritable, Target.ram.injEq]
  by_cases h1 : 256 + a.toNat = k <;> by_cases h2 : 256 + b.toNat = k <;> simp [h1, h2]
  omega

/-- R213: three bytes pushed are three bytes stored. -/
theorem StoresBytes.three {a b c : Byte} {st t : State} (v w x : Byte) (hab : a ≠ b) (hac : a ≠ c) (hbc : b ≠ c)
    (hr : t.ram = ((st.ram.write (256 + a.toNat) v).write (256 + b.toNat) w).write (256 + c.toNat) x)
    (hp : t.prgRam = st.prgRam) (hl : t.launch = st.launch) :
    StoresBytes [(stackAddr a, v), (stackAddr b, w), (stackAddr c, x)] st t := by
  intro addr h
  simp only [List.find?_cons, List.find?_nil, route_stackAddr]
  unfold busPeek busRead
  rw [hl]
  have := stack_ne hab
  have := stack_ne hac
  have := stack_ne hbc
  rcases hm : route st.launch.cart addr with k | k | k | k | k | k | _ <;>
    try (simp_all [Target.isStorage, Target.isWritable]; done)
  simp only [hr, Memory.read_write, Target.isWritable, Target.ram.injEq]
  by_cases h1 : 256 + a.toNat = k <;> by_cases h2 : 256 + b.toNat = k <;> by_cases h3 : 256 + c.toNat = k <;>
    simp [h1, h2, h3] <;> omega

/-! ## Vectors (R42, R47) -/

/-- R271: from `0x8000` up an inserted cartridge answers from PRG-ROM. -/
theorem route_rom (c : Cartridge) {addr : Addr} (h : 0x8000 ≤ addr.toNat) :
    route c addr = if c.inserted then .prgRom ((addr.toNat - 0x8000) % c.prgSize.bytes) else .nothing := by
  rw [route_high _ (by omega), Cartridge.route]
  split
  · rw [if_neg (by omega), if_neg (by omega)]
  · rfl

theorem busPeek_high {addr : Addr} {st t : State} (h : 0x8000 ≤ addr.toNat) (hl : t.launch = st.launch) :
    busPeek addr t = busPeek addr st := by
  unfold busPeek busRead
  rw [hl, route_rom _ h]
  cases st.launch.cart.inserted <;> simp

theorem read16_high {addr : Addr} {st : State} (h : 0x4020 ≤ addr.toNat) (h1 : 0x4020 ≤ (addr + 1).toNat) :
    read16 addr st = (word (busPeek (addr + 1) st) (busPeek addr st), st) := by
  simp only [read16, busRead_state_high st h, busRead_state_high st h1]
  rfl

/-! ## Exceptions (R213, R173, R174) -/

/-- R213: entering a trap through a vector in ROM: three stores on the stack, S three lower, B and I written,
PC from the vector, and nothing else. -/
theorem trapEntry_eq (b : Bool) {vector : Addr} (st : State) (h : 0x8000 ≤ vector.toNat)
    (h1 : 0x8000 ≤ (vector + 1).toNat) :
    trapEntry b vector st =
      (((st.setRam (((st.ram.write (256 + st.s.toNat) (hi8 st.pc)).write (256 + (st.s - 1).toNat) (lo8 st.pc)).write
        (256 + (st.s - 2).toNat) (entryStatus st.p b ||| 0x20))).setS (st.s - 3)).setP (entryStatus st.p b)).setPc
        (word (busPeek (vector + 1) st) (busPeek vector st)) := by
  have e : st.s - 2 - 1 = st.s - 3 := by bv_omega
  rw [← e]
  simp only [trapEntry, push16_eq, push_eq]
  rw [read16_high (by omega) (by omega)]
  rw [busPeek_high (st := st) h (by simp), busPeek_high (st := st) h1 (by simp)]
  rfl

theorem returnFromTrap_eq (st : State) :
    returnFromTrap st =
      ((st.setS (st.s + 3)).setP (pulledStatus st.p (st.ram.read (256 + (st.s + 1).toNat)))).setPc
        (word (st.ram.read (256 + (st.s + 3).toNat)) (st.ram.read (256 + (st.s + 2).toNat))) := by
  have e1 : st.s + 1 + 1 = st.s + 2 := by bv_omega
  have e2 : st.s + 1 + 2 = st.s + 3 := by bv_omega
  rw [← e1, ← e2]
  simp only [returnFromTrap, pull_eq, pull16_eq]
  rfl

/-! ## Addressing modes -/

theorem readZeroPage16_eq (t : Byte) (st : State) :
    readZeroPage16 t st = (word (st.ram.read (t + 1).toNat) (st.ram.read t.toNat), st) := by
  simp [readZeroPage16]

/-- R73: "All mode resolution reads" lie in page 0, so resolving a mode changes nothing. -/
@[simp] theorem resolve_state (m : MemOperand) (st : State) : (resolve m st).state = st := by
  cases m <;> simp [resolve, indexed, readZeroPage16_eq]

theorem fetchOperand_state (src : Source) (st : State) :
    (fetchOperand src st).state = st ∨ ∃ addr, (fetchOperand src st).state = (busRead addr st).2 := by
  cases src with
  | imm n => exact .inl rfl
  | mem m => exact .inr ⟨(resolve m st).ea, by simp [fetchOperand]⟩

@[simp] theorem fetchOperand_a (src : Source) (st : State) : (fetchOperand src st).state.a = st.a := by
  rcases fetchOperand_state src st with h | ⟨_, h⟩ <;> simp [h]
@[simp] theorem fetchOperand_x (src : Source) (st : State) : (fetchOperand src st).state.x = st.x := by
  rcases fetchOperand_state src st with h | ⟨_, h⟩ <;> simp [h]
@[simp] theorem fetchOperand_y (src : Source) (st : State) : (fetchOperand src st).state.y = st.y := by
  rcases fetchOperand_state src st with h | ⟨_, h⟩ <;> simp [h]
@[simp] theorem fetchOperand_s (src : Source) (st : State) : (fetchOperand src st).state.s = st.s := by
  rcases fetchOperand_state src st with h | ⟨_, h⟩ <;> simp [h]
@[simp] theorem fetchOperand_p (src : Source) (st : State) : (fetchOperand src st).state.p = st.p := by
  rcases fetchOperand_state src st with h | ⟨_, h⟩ <;> simp [h]
@[simp] theorem fetchOperand_pc (src : Source) (st : State) : (fetchOperand src st).state.pc = st.pc := by
  rcases fetchOperand_state src st with h | ⟨_, h⟩ <;> simp [h]
@[simp] theorem fetchOperand_nmiPending (src : Source) (st : State) : (fetchOperand src st).state.nmiPending = st.nmiPending := by
  rcases fetchOperand_state src st with h | ⟨_, h⟩ <;> simp [h]
@[simp] theorem fetchOperand_irqPending (src : Source) (st : State) : (fetchOperand src st).state.irqPending = st.irqPending := by
  rcases fetchOperand_state src st with h | ⟨_, h⟩ <;> simp [h]
@[simp] theorem fetchOperand_halted (src : Source) (st : State) : (fetchOperand src st).state.halted = st.halted := by
  rcases fetchOperand_state src st with h | ⟨_, h⟩ <;> simp [h]
@[simp] theorem fetchOperand_budget (src : Source) (st : State) : (fetchOperand src st).state.budget = st.budget := by
  rcases fetchOperand_state src st with h | ⟨_, h⟩ <;> simp [h]
@[simp] theorem fetchOperand_cycleCount (src : Source) (st : State) : (fetchOperand src st).state.cycleCount = st.cycleCount := by
  rcases fetchOperand_state src st with h | ⟨_, h⟩ <;> simp [h]
@[simp] theorem fetchOperand_didNmi (src : Source) (st : State) : (fetchOperand src st).state.didNmi = st.didNmi := by
  rcases fetchOperand_state src st with h | ⟨_, h⟩ <;> simp [h]
@[simp] theorem fetchOperand_didIrq (src : Source) (st : State) : (fetchOperand src st).state.didIrq = st.didIrq := by
  rcases fetchOperand_state src st with h | ⟨_, h⟩ <;> simp [h]
@[simp] theorem fetchOperand_tickCount (src : Source) (st : State) : (fetchOperand src st).state.tickCount = st.tickCount := by
  rcases fetchOperand_state src st with h | ⟨_, h⟩ <;> simp [h]
@[simp] theorem fetchOperand_ram (src : Source) (st : State) : (fetchOperand src st).state.ram = st.ram := by
  rcases fetchOperand_state src st with h | ⟨_, h⟩ <;> simp [h]
@[simp] theorem fetchOperand_prgRam (src : Source) (st : State) : (fetchOperand src st).state.prgRam = st.prgRam := by
  rcases fetchOperand_state src st with h | ⟨_, h⟩ <;> simp [h]
@[simp] theorem fetchOperand_apu (src : Source) (st : State) : (fetchOperand src st).state.apu = st.apu := by
  rcases fetchOperand_state src st with h | ⟨_, h⟩ <;> simp [h]
@[simp] theorem fetchOperand_launch (src : Source) (st : State) : (fetchOperand src st).state.launch = st.launch := by
  rcases fetchOperand_state src st with h | ⟨_, h⟩ <;> simp [h]
@[simp] theorem fetchOperand_hostCalls (src : Source) (st : State) : (fetchOperand src st).state.hostCalls = st.hostCalls := by
  rcases fetchOperand_state src st with h | ⟨_, h⟩ <;> simp [h]

@[simp] theorem fetchOperand_flag (src : Source) (st : State) (g : Flag) :
    (fetchOperand src st).state.flag g = st.flag g := by
  simp [State.flag]

end Sys2Proof.Machine
end

