-- ==== Sys2Proof/Laws/Exec.lean ====
section
/-! SUPPORT. One equation per instruction, by `rfl`: the shape its meaning has. And one equation per shape: the
next state it answers. A proof about an instruction rewrites with these and unfolds nothing. -/

namespace Sys2Proof.Machine

/-! ## The shapes -/

theorem readInstr_next (op : Byte) (src : Source) (effect : Byte → State → State) (st : State) :
    readInstr op src effect st =
      .next ((effect (fetchOperand src st).value (fetchOperand src st).state).setBudget
        (st.launch.cycles op + if (fetchOperand src st).crossed then 1 else 0)) := rfl

theorem storeInstr_next (op : Byte) (m : MemOperand) (v : Byte) (st : State) :
    storeInstr op m v st = .next ((busWrite (resolve m st).ea v st).setBudget (st.launch.cycles op)) := by
  simp [storeInstr, finish]

theorem modifyInstr_next (op : Byte) (m : MemOperand) (result : Byte → Byte) (flags : Byte → State → State)
    (st : State) :
    modifyInstr op m result flags st =
      .next ((flags (busPeek (resolve m st).ea st) (busWrite (resolve m st).ea
        (result (busPeek (resolve m st).ea st)) (busRead (resolve m st).ea st).2)).setBudget (st.launch.cycles op)) := by
  simp [modifyInstr, finish, busPeek]

theorem impliedInstr_next (op : Byte) (effect : State → State) (st : State) :
    impliedInstr op effect st = .next ((effect st).setBudget (st.launch.cycles op)) := rfl

theorem branchInstr_taken (op t : Byte) (st : State) :
    branchInstr op true t st =
      .next ((st.setPc (branchTarget st.pc t)).setBudget
        (st.launch.cycles op + if hi8 (branchTarget st.pc t) = hi8 st.pc then 1 else 2)) := rfl

theorem branchInstr_untaken (op t : Byte) (st : State) :
    branchInstr op false t st = .next (st.setBudget (st.launch.cycles op)) := rfl

theorem shiftInstr_acc (op : Byte) (result : Byte → Byte) (out : Byte → Bool) (st : State) :
    shiftInstr op none result out st =
      .next (((st.setA (result st.a)).setShiftFlags (out st.a) (result st.a)).setBudget (st.launch.cycles op)) := rfl

theorem shiftInstr_mem (op : Byte) (m : MemOperand) (result : Byte → Byte) (out : Byte → Bool) (st : State) :
    shiftInstr op (some m) result out st =
      modifyInstr op m result (fun b st => st.setShiftFlags (out b) (result b)) st := rfl

/-! ## The instructions -/

theorem exec_lda (f : AluForm) (st : State) :
    exec (.lda f) st = readInstr (Instr.lda f).opcode f.source (fun m st => (st.setA m).setZN m) st := rfl
theorem exec_ldx (f : LdxForm) (st : State) :
    exec (.ldx f) st = readInstr (Instr.ldx f).opcode f.source (fun m st => (st.setX m).setZN m) st := rfl
theorem exec_ldy (f : LdyForm) (st : State) :
    exec (.ldy f) st = readInstr (Instr.ldy f).opcode f.source (fun m st => (st.setY m).setZN m) st := rfl
theorem exec_sta (f : StaForm) (st : State) :
    exec (.sta f) st = storeInstr (Instr.sta f).opcode f.operand st.a st := rfl
theorem exec_stx (f : StxForm) (st : State) :
    exec (.stx f) st = storeInstr (Instr.stx f).opcode f.operand st.x st := rfl
theorem exec_sty (f : StyForm) (st : State) :
    exec (.sty f) st = storeInstr (Instr.sty f).opcode f.operand st.y st := rfl
theorem exec_tax (st : State) :
    exec .tax st = impliedInstr 0xAA (fun st => (st.setX st.a).setZN st.a) st := rfl
theorem exec_tay (st : State) :
    exec .tay st = impliedInstr 0xA8 (fun st => (st.setY st.a).setZN st.a) st := rfl
theorem exec_txa (st : State) :
    exec .txa st = impliedInstr 0x8A (fun st => (st.setA st.x).setZN st.x) st := rfl
theorem exec_tya (st : State) :
    exec .tya st = impliedInstr 0x98 (fun st => (st.setA st.y).setZN st.y) st := rfl
theorem exec_tsx (st : State) :
    exec .tsx st = impliedInstr 0xBA (fun st => (st.setX st.s).setZN st.s) st := rfl
theorem exec_txs (st : State) :
    exec .txs st = impliedInstr 0x9A (fun st => st.setS st.x) st := rfl
theorem exec_pha (st : State) :
    exec .pha st = impliedInstr 0x48 (fun st => push st.a st) st := rfl
theorem exec_php (st : State) :
    exec .php st = impliedInstr 0x08 (fun st => push (pushedByPhp st.p) st) st := rfl
theorem exec_pla (st : State) :
    exec .pla st = impliedInstr 0x68 (fun st => ((pull st).2.setA (pull st).1).setZN (pull st).1) st := rfl
theorem exec_plp (st : State) :
    exec .plp st = impliedInstr 0x28 (fun st => (pull st).2.setP (pulledStatus st.p (pull st).1)) st := rfl
theorem exec_and (f : AluForm) (st : State) :
    exec (.and f) st = readInstr (Instr.and f).opcode f.source (fun m st => (st.setA (st.a &&& m)).setZN (st.a &&& m)) st := rfl
theorem exec_eor (f : AluForm) (st : State) :
    exec (.eor f) st = readInstr (Instr.eor f).opcode f.source (fun m st => (st.setA (st.a ^^^ m)).setZN (st.a ^^^ m)) st := rfl
theorem exec_ora (f : AluForm) (st : State) :
    exec (.ora f) st = readInstr (Instr.ora f).opcode f.source (fun m st => (st.setA (st.a ||| m)).setZN (st.a ||| m)) st := rfl
theorem exec_bit (f : BitForm) (st : State) :
    exec (.bit f) st = readInstr (Instr.bit f).opcode f.source (fun m st => st.testBits m) st := rfl
theorem exec_adc (f : AluForm) (st : State) :
    exec (.adc f) st = readInstr (Instr.adc f).opcode f.source (fun m st => st.addToA m) st := rfl
theorem exec_sbc (f : AluForm) (st : State) :
    exec (.sbc f) st = readInstr (Instr.sbc f).opcode f.source (fun m st => st.addToA (m ^^^ 0xFF)) st := rfl
theorem exec_cmp (f : AluForm) (st : State) :
    exec (.cmp f) st = readInstr (Instr.cmp f).opcode f.source (fun m st => st.compareWith st.a m) st := rfl
theorem exec_cpx (f : CpxForm) (st : State) :
    exec (.cpx f) st = readInstr (Instr.cpx f).opcode f.source (fun m st => st.compareWith st.x m) st := rfl
theorem exec_cpy (f : CpxForm) (st : State) :
    exec (.cpy f) st = readInstr (Instr.cpy f).opcode f.source (fun m st => st.compareWith st.y m) st := rfl
theorem exec_inc (f : IncForm) (st : State) :
    exec (.inc f) st =
      modifyInstr (Instr.inc f).opcode f.operand (fun m => m + 1) (fun m st => st.setZN (m + 1)) st := rfl
theorem exec_dec (f : IncForm) (st : State) :
    exec (.dec f) st =
      modifyInstr (Instr.dec f).opcode f.operand (fun m => m - 1) (fun m st => st.setZN (m - 1)) st := rfl
theorem exec_inx (st : State) :
    exec .inx st = impliedInstr 0xE8 (fun st => (st.setX (st.x + 1)).setZN (st.x + 1)) st := rfl
theorem exec_iny (st : State) :
    exec .iny st = impliedInstr 0xC8 (fun st => (st.setY (st.y + 1)).setZN (st.y + 1)) st := rfl
theorem exec_dex (st : State) :
    exec .dex st = impliedInstr 0xCA (fun st => (st.setX (st.x - 1)).setZN (st.x - 1)) st := rfl
theorem exec_dey (st : State) :
    exec .dey st = impliedInstr 0x88 (fun st => (st.setY (st.y - 1)).setZN (st.y - 1)) st := rfl
theorem exec_asl (f : ShiftForm) (st : State) :
    exec (.asl f) st =
      shiftInstr (Instr.asl f).opcode f.operand (fun m => shiftLeft m false) (fun m => m.getLsbD 7) st := rfl
theorem exec_lsr (f : ShiftForm) (st : State) :
    exec (.lsr f) st =
      shiftInstr (Instr.lsr f).opcode f.operand (fun m => shiftRight m false) (fun m => m.getLsbD 0) st := rfl
theorem exec_rol (f : ShiftForm) (st : State) :
    exec (.rol f) st =
      shiftInstr (Instr.rol f).opcode f.operand (fun m => shiftLeft m (st.flag .c)) (fun m => m.getLsbD 7) st := rfl
theorem exec_ror (f : ShiftForm) (st : State) :
    exec (.ror f) st =
      shiftInstr (Instr.ror f).opcode f.operand (fun m => shiftRight m (st.flag .c)) (fun m => m.getLsbD 0) st := rfl
theorem exec_jmp_abs (w : Addr) (st : State) : exec (.jmp (.abs w)) st = finish st 0x4C 0 (st.setPc w) := rfl
theorem exec_jmp_ind (w : Addr) (st : State) :
    exec (.jmp (.ind w)) st = finish st 0x6C 0 ((readIndirect w st).2.setPc (readIndirect w st).1) := rfl
theorem exec_jsr (w : Addr) (st : State) : exec (.jsr w) st = finish st 0x20 0 ((push16 (st.pc - 1) st).setPc w) := rfl
theorem exec_rts (st : State) :
    exec .rts st = impliedInstr 0x60 (fun st => (pull16 st).2.setPc ((pull16 st).1 + 1)) st := rfl
theorem exec_brk (st : State) :
    exec .brk st = impliedInstr 0x00 (fun st => trapEntry true Config.irqVector (st.setPc (st.pc + 1))) st := rfl
theorem exec_rti (st : State) :
    exec .rti st = impliedInstr 0x40 (returnFromTrap) st := rfl
theorem exec_bcc (t : Byte) (st : State) : exec (.bcc t) st = branchInstr 0x90 (!st.flag .c) t st := rfl
theorem exec_bcs (t : Byte) (st : State) : exec (.bcs t) st = branchInstr 0xB0 (st.flag .c) t st := rfl
theorem exec_beq (t : Byte) (st : State) : exec (.beq t) st = branchInstr 0xF0 (st.flag .z) t st := rfl
theorem exec_bmi (t : Byte) (st : State) : exec (.bmi t) st = branchInstr 0x30 (st.flag .n) t st := rfl
theorem exec_bne (t : Byte) (st : State) : exec (.bne t) st = branchInstr 0xD0 (!st.flag .z) t st := rfl
theorem exec_bpl (t : Byte) (st : State) : exec (.bpl t) st = branchInstr 0x10 (!st.flag .n) t st := rfl
theorem exec_bvc (t : Byte) (st : State) : exec (.bvc t) st = branchInstr 0x50 (!st.flag .v) t st := rfl
theorem exec_bvs (t : Byte) (st : State) : exec (.bvs t) st = branchInstr 0x70 (st.flag .v) t st := rfl
theorem exec_clc (st : State) :
    exec .clc st = impliedInstr 0x18 (fun st => st.setFlag .c false) st := rfl
theorem exec_cld (st : State) :
    exec .cld st = impliedInstr 0xD8 (fun st => st.setFlag .d false) st := rfl
theorem exec_cli (st : State) :
    exec .cli st = impliedInstr 0x58 (fun st => st.setFlag .i false) st := rfl
theorem exec_clv (st : State) :
    exec .clv st = impliedInstr 0xB8 (fun st => st.setFlag .v false) st := rfl
theorem exec_sec (st : State) :
    exec .sec st = impliedInstr 0x38 (fun st => st.setFlag .c true) st := rfl
theorem exec_sed (st : State) :
    exec .sed st = impliedInstr 0xF8 (fun st => st.setFlag .d true) st := rfl
theorem exec_sei (st : State) :
    exec .sei st = impliedInstr 0x78 (fun st => st.setFlag .i true) st := rfl
theorem exec_nop (st : State) :
    exec .nop st = impliedInstr 0xEA (fun st => st) st := rfl

/-- R199: "the operation does nothing": an XXX of any mode but IND changes only the budget. -/
theorem exec_xxx (op : Byte) {f : XxxForm} (hf : f.mode ≠ .ind) (st : State) :
    exec (.xxx op f) st = .next (st.setBudget (st.launch.cycles op)) := by
  cases f with
  | imp => rfl
  | acc => rfl
  | imm n => rfl
  | rel t => rfl
  | ind w => exact absurd rfl hf
  | mem m =>
    show finish st op 0 (resolve m st).state = _
    rw [resolve_state]
    rfl

/-- R199, R84: an XXX of mode IND reads its pointer. -/
theorem exec_xxx_ind (op : Byte) (w : Addr) (st : State) :
    exec (.xxx op (.ind w)) st = .next ((readIndirect w st).2.setBudget (st.launch.cycles op)) := rfl

end Sys2Proof.Machine
end

