-- ==== Sys2Proof/Laws/Invariant.lean ====
section
/-! SUPPORT. The shared operations keep `State.Ok`: the bus, the stack, OAM DMA, exception entry and return, operand
access, fetch, and the PPU and APU halves of a tick. -/

namespace Sys2Proof.Machine

/-- `State.Ok` sees the U flag, the memories and the devices, and nothing else. -/
theorem State.Ok.of_same {st t : State} (h : st.Ok) (hu : t.flag .u = true) (hr : t.ram = st.ram)
    (hp : t.prgRam = st.prgRam) (hl : t.launch = st.launch) (hg : t.ppu = st.ppu) (ha : t.apu = st.apu) : t.Ok where
  unused := hu
  ram_sized := by rw [hr]; exact h.ram_sized
  prgRam_wf := by rw [hp]; exact h.prgRam_wf
  launch := by rw [hl]; exact h.launch
  ppu := by rw [hg]; exact h.ppu
  apu := by rw [ha]; exact h.apu

theorem State.Ok.setPpu {st : State} (h : st.Ok) {q : Ppu} (hq : q.Ok) : (st.setPpu q).Ok := { h with ppu := hq }
theorem State.Ok.setApu {st : State} (h : st.Ok) {q : Apu} (hq : q.Ok) : (st.setApu q).Ok := { h with apu := hq }
theorem State.Ok.setPads {st : State} (h : st.Ok) (q : Pads) : (st.setPads q).Ok := h.of_same h.unused rfl rfl rfl rfl rfl
theorem State.Ok.setA {st : State} (h : st.Ok) (v : Byte) : (st.setA v).Ok := h.of_same h.unused rfl rfl rfl rfl rfl
theorem State.Ok.setX {st : State} (h : st.Ok) (v : Byte) : (st.setX v).Ok := h.of_same h.unused rfl rfl rfl rfl rfl
theorem State.Ok.setY {st : State} (h : st.Ok) (v : Byte) : (st.setY v).Ok := h.of_same h.unused rfl rfl rfl rfl rfl
theorem State.Ok.setS {st : State} (h : st.Ok) (v : Byte) : (st.setS v).Ok := h.of_same h.unused rfl rfl rfl rfl rfl
theorem State.Ok.setPc {st : State} (h : st.Ok) (v : Addr) : (st.setPc v).Ok := h.of_same h.unused rfl rfl rfl rfl rfl
theorem State.Ok.setBudget {st : State} (h : st.Ok) (v : Nat) : (st.setBudget v).Ok :=
  h.of_same h.unused rfl rfl rfl rfl rfl
theorem State.Ok.setHalted {st : State} (h : st.Ok) (v : Bool) : (st.setHalted v).Ok :=
  h.of_same h.unused rfl rfl rfl rfl rfl
theorem State.Ok.setNmiPending {st : State} (h : st.Ok) (v : Bool) : (st.setNmiPending v).Ok :=
  h.of_same h.unused rfl rfl rfl rfl rfl
theorem State.Ok.setIrqPending {st : State} (h : st.Ok) (v : Bool) : (st.setIrqPending v).Ok :=
  h.of_same h.unused rfl rfl rfl rfl rfl
theorem State.Ok.setDidNmi {st : State} (h : st.Ok) (v : Bool) : (st.setDidNmi v).Ok :=
  h.of_same h.unused rfl rfl rfl rfl rfl
theorem State.Ok.setDidIrq {st : State} (h : st.Ok) (v : Bool) : (st.setDidIrq v).Ok :=
  h.of_same h.unused rfl rfl rfl rfl rfl
theorem State.Ok.setCycleCount {st : State} (h : st.Ok) (v : BitVec 64) : (st.setCycleCount v).Ok :=
  h.of_same h.unused rfl rfl rfl rfl rfl
theorem State.Ok.setTickCount {st : State} (h : st.Ok) (v : Nat) : (st.setTickCount v).Ok :=
  h.of_same h.unused rfl rfl rfl rfl rfl
theorem State.Ok.setHostCalls {st : State} (h : st.Ok) (v : List (List HostCall)) : (st.setHostCalls v).Ok :=
  h.of_same h.unused rfl rfl rfl rfl rfl

/-- R18: no flag operation but one on U could clear U. -/
theorem State.Ok.setFlag {st : State} (h : st.Ok) {f : Flag} (hf : f ≠ .u) (b : Bool) : (st.setFlag f b).Ok :=
  h.of_same (by rw [State.flag_setFlag, if_neg hf]; exact h.unused) rfl rfl rfl rfl rfl

theorem State.Ok.setZN {st : State} (h : st.Ok) (v : Byte) : (st.setZN v).Ok :=
  (h.setFlag (by decide) _).setFlag (by decide) _

theorem State.Ok.setP {st : State} (h : st.Ok) {p : Byte} (hp : flagOf p .u = true) : (st.setP p).Ok :=
  h.of_same hp rfl rfl rfl rfl rfl

/-! ## The bus -/

theorem State.Ok.busRead {st : State} (h : st.Ok) (addr : Addr) : (Machine.busRead addr st).2.Ok := by
  rcases busRead_cases addr st with e | ⟨r, -, e⟩ | ⟨q, -, e⟩ <;> rw [e]
  · exact h
  · exact h.setPpu (h.ppu.readReg _ _)
  · exact h.setPads _

theorem State.Ok.dmaCopy {st : State} (h : st.Ok) (page : Byte) (fuel i : Nat) (hi : i + fuel ≤ 256) :
    (Machine.dmaCopy page fuel i st).Ok := by
  induction fuel generalizing i st with
  | zero => exact h
  | succ n ih =>
    have hr := h.busRead (word page (BitVec.ofNat 8 i))
    exact ih (hr.setPpu (hr.ppu.writeOamAt (by omega) _)) _ (by omega)

theorem State.Ok.ppuOnDma {st : State} (h : st.Ok) : (Machine.ppuOnDma st).Ok := by
  have hh : (st.cpuOnSignal .cpuHlt).Ok := h.setHalted true
  have hc := hh.dmaCopy (st.cpuOnSignal .cpuHlt).apu.dmaPage 256 0 (by omega)
  unfold Machine.ppuOnDma
  simp only
  generalize Machine.dmaCopy (st.cpuOnSignal .cpuHlt).apu.dmaPage 256 0 (st.cpuOnSignal .cpuHlt) = u at hc ⊢
  exact hc.setPpu { hc.ppu with dma_le := Nat.le_refl _ }

theorem State.Ok.broadcast {st : State} (h : st.Ok) (sig : Signal) : (Machine.broadcast sig st).Ok := by
  cases sig with
  | cpuNmi => exact h.setNmiPending true
  | cpuIrq => exact h.setIrqPending true
  | cpuHlt => exact h.setHalted true
  | cpuRsm => exact h.setHalted false
  | ppuDma => exact h.ppuOnDma
  | apuFrc m i => exact h.setApu (h.apu.setFrameMode m i)

/-- A RAM offset is below 2048. -/
theorem route_ram_lt {c : Cartridge} {addr : Addr} {k : Nat} (h : route c addr = .ram k) : k < 2048 := by
  have hc := c.route_cases addr.toNat
  unfold route at h
  simp only at h
  split at h
  · cases h; omega
  · split at h
    · cases h
    · split at h
      · cases h
      · split at h
        · cases h
        · split at h
          · cases h
          · split at h
            · cases h
            · rcases hc with ⟨_, e⟩ | ⟨_, e⟩ | e <;> rw [e] at h <;> cases h

theorem State.Ok.busWrite {st : State} (h : st.Ok) (addr : Addr) (b : Byte) : (Machine.busWrite addr b st).Ok := by
  unfold Machine.busWrite
  split
  · rename_i hk
    exact { h with ram_sized := Memory.sized_write h.ram_sized (route_ram_lt hk) b }
  · exact h.setPpu (h.ppu.writeReg _ _ _)
  · unfold apuWrite
    have := h.setApu (h.apu.writeReg st.launch ‹Nat› b)
    simp only
    split
    · exact this.broadcast _
    · exact this
  · exact h.setPads _
  · exact h.broadcast _
  · exact { h with prgRam_wf := Memory.wf_write h.prgRam_wf _ b }
  · exact h
  · exact h

/-! ## Stack, exceptions, operands, fetch -/

theorem State.Ok.push {st : State} (h : st.Ok) (v : Byte) : (Machine.push v st).Ok := (h.busWrite _ v).setS _
theorem State.Ok.pull {st : State} (h : st.Ok) : (Machine.pull st).2.Ok := (h.setS _).busRead _
theorem State.Ok.push16 {st : State} (h : st.Ok) (w : Addr) : (Machine.push16 w st).Ok := (h.push _).push _
theorem State.Ok.pull16 {st : State} (h : st.Ok) : (Machine.pull16 st).2.Ok := h.pull.pull
theorem State.Ok.read16 {st : State} (h : st.Ok) (addr : Addr) : (Machine.read16 addr st).2.Ok :=
  (h.busRead _).busRead _

theorem State.Ok.trapEntry {st : State} (h : st.Ok) (b : Bool) (vector : Addr) : (Machine.trapEntry b vector st).Ok := by
  have h1 := h.push16 st.pc
  have h2 := h1.setP (p := entryStatus (Machine.push16 st.pc st).p b) (by
    rw [flagOf_entryStatus]
    simpa [State.flag] using h1.unused)
  exact ((h2.push _).read16 vector).setPc _

theorem State.Ok.returnFromTrap {st : State} (h : st.Ok) : (Machine.returnFromTrap st).Ok := by
  have h1 := h.pull.setP (p := pulledStatus (Machine.pull st).2.p (Machine.pull st).1) (by simp)
  exact h1.pull16.setPc _

theorem State.Ok.fetchOperand {st : State} (h : st.Ok) (src : Source) : (Machine.fetchOperand src st).state.Ok := by
  rcases fetchOperand_state src st with e | ⟨addr, e⟩ <;> rw [e]
  · exact h
  · exact h.busRead addr

theorem State.Ok.readIndirect {st : State} (h : st.Ok) (ptr : Addr) : (Machine.readIndirect ptr st).2.Ok :=
  (h.busRead _).busRead _

theorem State.Ok.fetchByte {st : State} (h : st.Ok) : (Machine.fetchByte st).2.Ok := (h.busRead _).setPc _

theorem State.Ok.passByte {st : State} (h : st.Ok) : (Machine.passByte st).2.Ok := h.setPc _

theorem State.Ok.fetchInstr {st : State} (h : st.Ok) : (Machine.fetchInstr st).2.Ok := by
  unfold Machine.fetchInstr
  simp only
  split
  · exact h.fetchByte
  · exact h.fetchByte.fetchByte
  · exact h.fetchByte.passByte
  · exact h.fetchByte.fetchByte.fetchByte

/-! ## The launch parameters -/

/-- R90: the default counts lie between 1 and 8. -/
theorem cycleTable_bounds : ∀ n ∈ cycleTable, 1 ≤ n ∧ n ≤ 8 := by
  simp only [cycleTable, List.forall_mem_append]
  decide

/-- R7: the defaults of the spec are good launch parameters, and so is an empty cartridge image. -/
theorem Launch.ok_default : Launch.default.Ok where
  cart := ⟨by decide, by rintro _ ⟨⟩; decide⟩
  cycles op := cycleTable_bounds _ (by simp [Launch.cycles, Launch.default, BaseCycles.count, defaultBaseCycles])
  samplePeriod := by decide
  pulseMix := by simp [Launch.default, defaultPulseMix]
  tndMix := by simp [Launch.default, defaultTndMix]

/-- Another good cartridge in the slot. -/
theorem Launch.Ok.withCart {l : Launch} (h : l.Ok) {c : Cartridge} (hc : c.Ok) : Launch.Ok { l with cart := c } :=
  { h with cart := hc }

/-! ## The PPU and APU halves of a tick -/

theorem State.Ok.ppuTick {st : State} (h : st.Ok) : (Machine.ppuTick st).Ok := by
  have h1 := h.setPpu (h.ppu.tick st.launch.cart)
  unfold Machine.ppuTick
  simp only
  have h2 : (if st.ppu.resumesCpu then Machine.broadcast .cpuRsm (st.setPpu (st.ppu.tick st.launch.cart))
      else st.setPpu (st.ppu.tick st.launch.cart)).Ok := by
    split
    · exact h1.broadcast _
    · exact h1
  split
  · exact h2.broadcast _
  · exact h2

theorem State.Ok.apuTick {st : State} (h : st.Ok) : (Machine.apuTick st).Ok := by
  have h1 := h.setApu (h.apu.cycle st.launch)
  unfold Machine.apuTick
  simp only
  split
  · exact h1.broadcast _
  · exact h1

/-- R435, R210: an outcome of the machine is a next state that is good. -/
def GoodNext (o : Host.Outcome State Fault Refusal) : Prop := ∃ t, o = .next t ∧ t.Ok

theorem GoodNext.finish {t : State} (h : t.Ok) (st : State) (op : Byte) (extra : Nat) :
    GoodNext (Machine.finish st op extra t) :=
  ⟨_, rfl, h.setBudget _⟩

end Sys2Proof.Machine
end

