-- ==== Sys2Proof/Tests/Slice0.lean ====
section
/-! SUPPORT. The model's own tests. `T`, `S`, `L`, `A`, `H`, `C`, `F`, `X`, `I`, `U`, `K` and `Q` with a number
are the vectors of `95_test_vectors.md` of that name; the words of the decode tests are written bit by bit from
`opcode_table.json`'s encodings. The last part shows that the hypotheses of the obligations can be met. -/

namespace Sys2Proof.Tests

open Sys2Proof Sys2Proof.Machine

/-! ## Helpers -/

/-- The CPU registers before and after a vector, with the start values of `95_test_vectors.md` section 2. -/
structure Regs where
  a : Byte := 0
  x : Byte := 0
  y : Byte := 0
  s : Byte := 0xFD
  p : Byte := 0x24
  pc : Addr := 0x8000

/-- Cells written one after the other into an empty memory. -/
def cells (l : List (Nat × Byte)) : Memory := l.foldl (fun m c => Memory.write m c.1 c.2) []

/-- The reset state with registers, a program at PC in PRG-ROM, other ROM bytes (by offset) and RAM bytes. -/
def start (r : Regs) (bytes : List Byte) (ram rom : List (Nat × Byte)) : State :=
  pokeBytes r.pc bytes
    { State.reset with
      a := r.a, x := r.x, y := r.y, s := r.s, p := r.p, pc := r.pc, ram := cells ram
      launch := { Launch.default with cart := { Launch.default.cart with prgRom := cells rom } } }

/-- The outcome is a next state of which `f` holds. -/
def nextIs (f : State → Bool) : Host.Outcome State Fault Refusal → Bool
  | .next t => f t
  | .fault _ => false
  | .refused _ => false

/-- The state has these registers, this budget and, at each stored address, this byte. -/
def shows (r : Regs) (budget : Nat) (stores : List (Nat × Byte)) (t : State) : Bool :=
  t.a == r.a && t.x == r.x && t.y == r.y && t.s == r.s && t.p == r.p && t.pc == r.pc && t.budget == budget &&
    stores.all (fun c => busPeek (BitVec.ofNat 16 c.1) t == c.2)

/-- One boundary action on the program: the registers, the cycles and the bytes written afterwards. -/
def after (r : Regs) (bytes : List Byte) (ram rom : List (Nat × Byte)) (r' : Regs) (budget : Nat)
    (stores : List (Nat × Byte)) : Bool :=
  nextIs (shows r' budget stores) (boundaryAction (start r bytes ram rom))

/-- `st` in a launch whose `xxx_mode` gives every unassigned byte the mode `m`, and whose `base_cycles` gives every byte
the count `n`. -/
def withSlots (m : Mode) (n : Nat) (st : State) : State :=
  { st with launch := { st.launch with xxxMode := Vector.replicate 256 m, baseCycles := Vector.replicate 256 n } }

/-- The bytes decode to `i` with none left over, with the default `xxx_mode`. -/
def reads (bytes : List Byte) (i : Instr) : Bool :=
  match decode defaultXxxModes bytes with
  | .ok (j, rest) => j == i && rest.isEmpty
  | .error _ => false

/-! ## WellFormed: one ill-formed term for each way to be ill formed -/

/-- R91: `0xEA` is an official byte, so it is no `XXX`. -/
theorem smoke_xxx_official_byte : Instr.WellFormed defaultXxxModes (.xxx 0xEA .imp) = false := by decide

/-- R92: slot `0x02` has mode IMP, so it has no operand byte. -/
theorem smoke_xxx_operand_too_many : Instr.WellFormed defaultXxxModes (.xxx 0x02 (.imm 0)) = false := by decide

/-- R92: slot `0x0C` has mode ABS, not ZP0. -/
theorem smoke_xxx_wrong_mode : Instr.WellFormed defaultXxxModes (.xxx 0x0C (.mem (.zp0 0x10))) = false := by decide

/-- R92: slot `0x0C` with its own mode. -/
theorem smoke_xxx_well_formed : Instr.WellFormed defaultXxxModes (.xxx 0x0C (.mem (.abs 0x2002))) = true := by decide

/-! ## Decode -/

theorem test_decode_transfers_1 :
    reads [0b10100001, 0x10] (.lda (.izx 0x10)) ∧
    reads [0b10100101, 0x10] (.lda (.zp0 0x10)) ∧
    reads [0b10101001, 0x10] (.lda (.imm 0x10)) ∧
    reads [0b10101101, 0x34, 0x12] (.lda (.abs 0x1234)) ∧
    reads [0b10110001, 0x10] (.lda (.izy 0x10)) ∧
    reads [0b10110101, 0x10] (.lda (.zpx 0x10)) ∧
    reads [0b10111001, 0x34, 0x12] (.lda (.aby 0x1234)) ∧
    reads [0b10111101, 0x34, 0x12] (.lda (.abx 0x1234)) ∧
    reads [0b10100010, 0x10] (.ldx (.imm 0x10)) ∧
    reads [0b10100110, 0x10] (.ldx (.zp0 0x10)) ∧
    reads [0b10101110, 0x34, 0x12] (.ldx (.abs 0x1234)) ∧
    reads [0b10110110, 0x10] (.ldx (.zpy 0x10)) ∧
    reads [0b10111110, 0x34, 0x12] (.ldx (.aby 0x1234)) ∧
    reads [0b10100000, 0x10] (.ldy (.imm 0x10)) ∧
    reads [0b10100100, 0x10] (.ldy (.zp0 0x10)) ∧
    reads [0b10101100, 0x34, 0x12] (.ldy (.abs 0x1234)) ∧
    reads [0b10110100, 0x10] (.ldy (.zpx 0x10)) ∧
    reads [0b10111100, 0x34, 0x12] (.ldy (.abx 0x1234)) ∧
    reads [0b10000001, 0x10] (.sta (.izx 0x10)) ∧
    reads [0b10000101, 0x10] (.sta (.zp0 0x10)) ∧
    reads [0b10001101, 0x34, 0x12] (.sta (.abs 0x1234)) ∧
    reads [0b10010001, 0x10] (.sta (.izy 0x10)) ∧
    reads [0b10010101, 0x10] (.sta (.zpx 0x10)) ∧
    reads [0b10011001, 0x34, 0x12] (.sta (.aby 0x1234)) := by decide

theorem test_decode_transfers_2 :
    reads [0b10011101, 0x34, 0x12] (.sta (.abx 0x1234)) ∧
    reads [0b10000110, 0x10] (.stx (.zp0 0x10)) ∧
    reads [0b10001110, 0x34, 0x12] (.stx (.abs 0x1234)) ∧
    reads [0b10010110, 0x10] (.stx (.zpy 0x10)) ∧
    reads [0b10000100, 0x10] (.sty (.zp0 0x10)) ∧
    reads [0b10001100, 0x34, 0x12] (.sty (.abs 0x1234)) ∧
    reads [0b10010100, 0x10] (.sty (.zpx 0x10)) ∧
    reads [0b10101010] (.tax) ∧
    reads [0b10101000] (.tay) ∧
    reads [0b10001010] (.txa) ∧
    reads [0b10011000] (.tya) ∧
    reads [0b10111010] (.tsx) ∧
    reads [0b10011010] (.txs) := by decide

theorem test_decode_stack :
    reads [0b01001000] (.pha) ∧
    reads [0b00001000] (.php) ∧
    reads [0b01101000] (.pla) ∧
    reads [0b00101000] (.plp) := by decide

theorem test_decode_logic_1 :
    reads [0b00100001, 0x10] (.and (.izx 0x10)) ∧
    reads [0b00100101, 0x10] (.and (.zp0 0x10)) ∧
    reads [0b00101001, 0x10] (.and (.imm 0x10)) ∧
    reads [0b00101101, 0x34, 0x12] (.and (.abs 0x1234)) ∧
    reads [0b00110001, 0x10] (.and (.izy 0x10)) ∧
    reads [0b00110101, 0x10] (.and (.zpx 0x10)) ∧
    reads [0b00111001, 0x34, 0x12] (.and (.aby 0x1234)) ∧
    reads [0b00111101, 0x34, 0x12] (.and (.abx 0x1234)) ∧
    reads [0b01000001, 0x10] (.eor (.izx 0x10)) ∧
    reads [0b01000101, 0x10] (.eor (.zp0 0x10)) ∧
    reads [0b01001001, 0x10] (.eor (.imm 0x10)) ∧
    reads [0b01001101, 0x34, 0x12] (.eor (.abs 0x1234)) ∧
    reads [0b01010001, 0x10] (.eor (.izy 0x10)) ∧
    reads [0b01010101, 0x10] (.eor (.zpx 0x10)) ∧
    reads [0b01011001, 0x34, 0x12] (.eor (.aby 0x1234)) ∧
    reads [0b01011101, 0x34, 0x12] (.eor (.abx 0x1234)) ∧
    reads [0b00000001, 0x10] (.ora (.izx 0x10)) ∧
    reads [0b00000101, 0x10] (.ora (.zp0 0x10)) ∧
    reads [0b00001001, 0x10] (.ora (.imm 0x10)) ∧
    reads [0b00001101, 0x34, 0x12] (.ora (.abs 0x1234)) ∧
    reads [0b00010001, 0x10] (.ora (.izy 0x10)) ∧
    reads [0b00010101, 0x10] (.ora (.zpx 0x10)) ∧
    reads [0b00011001, 0x34, 0x12] (.ora (.aby 0x1234)) ∧
    reads [0b00011101, 0x34, 0x12] (.ora (.abx 0x1234)) := by decide

theorem test_decode_logic_2 :
    reads [0b00100100, 0x10] (.bit (.zp0 0x10)) ∧
    reads [0b00101100, 0x34, 0x12] (.bit (.abs 0x1234)) := by decide

theorem test_decode_arithmetic :
    reads [0b01100001, 0x10] (.adc (.izx 0x10)) ∧
    reads [0b01100101, 0x10] (.adc (.zp0 0x10)) ∧
    reads [0b01101001, 0x10] (.adc (.imm 0x10)) ∧
    reads [0b01101101, 0x34, 0x12] (.adc (.abs 0x1234)) ∧
    reads [0b01110001, 0x10] (.adc (.izy 0x10)) ∧
    reads [0b01110101, 0x10] (.adc (.zpx 0x10)) ∧
    reads [0b01111001, 0x34, 0x12] (.adc (.aby 0x1234)) ∧
    reads [0b01111101, 0x34, 0x12] (.adc (.abx 0x1234)) ∧
    reads [0b11100001, 0x10] (.sbc (.izx 0x10)) ∧
    reads [0b11100101, 0x10] (.sbc (.zp0 0x10)) ∧
    reads [0b11101001, 0x10] (.sbc (.imm 0x10)) ∧
    reads [0b11101101, 0x34, 0x12] (.sbc (.abs 0x1234)) ∧
    reads [0b11110001, 0x10] (.sbc (.izy 0x10)) ∧
    reads [0b11110101, 0x10] (.sbc (.zpx 0x10)) ∧
    reads [0b11111001, 0x34, 0x12] (.sbc (.aby 0x1234)) ∧
    reads [0b11111101, 0x34, 0x12] (.sbc (.abx 0x1234)) := by decide

theorem test_decode_compares :
    reads [0b11000001, 0x10] (.cmp (.izx 0x10)) ∧
    reads [0b11000101, 0x10] (.cmp (.zp0 0x10)) ∧
    reads [0b11001001, 0x10] (.cmp (.imm 0x10)) ∧
    reads [0b11001101, 0x34, 0x12] (.cmp (.abs 0x1234)) ∧
    reads [0b11010001, 0x10] (.cmp (.izy 0x10)) ∧
    reads [0b11010101, 0x10] (.cmp (.zpx 0x10)) ∧
    reads [0b11011001, 0x34, 0x12] (.cmp (.aby 0x1234)) ∧
    reads [0b11011101, 0x34, 0x12] (.cmp (.abx 0x1234)) ∧
    reads [0b11100000, 0x10] (.cpx (.imm 0x10)) ∧
    reads [0b11100100, 0x10] (.cpx (.zp0 0x10)) ∧
    reads [0b11101100, 0x34, 0x12] (.cpx (.abs 0x1234)) ∧
    reads [0b11000000, 0x10] (.cpy (.imm 0x10)) ∧
    reads [0b11000100, 0x10] (.cpy (.zp0 0x10)) ∧
    reads [0b11001100, 0x34, 0x12] (.cpy (.abs 0x1234)) := by decide

theorem test_decode_increments :
    reads [0b11100110, 0x10] (.inc (.zp0 0x10)) ∧
    reads [0b11101110, 0x34, 0x12] (.inc (.abs 0x1234)) ∧
    reads [0b11110110, 0x10] (.inc (.zpx 0x10)) ∧
    reads [0b11111110, 0x34, 0x12] (.inc (.abx 0x1234)) ∧
    reads [0b11000110, 0x10] (.dec (.zp0 0x10)) ∧
    reads [0b11001110, 0x34, 0x12] (.dec (.abs 0x1234)) ∧
    reads [0b11010110, 0x10] (.dec (.zpx 0x10)) ∧
    reads [0b11011110, 0x34, 0x12] (.dec (.abx 0x1234)) ∧
    reads [0b11101000] (.inx) ∧
    reads [0b11001000] (.iny) ∧
    reads [0b11001010] (.dex) ∧
    reads [0b10001000] (.dey) := by decide

theorem test_decode_shifts :
    reads [0b00000110, 0x10] (.asl (.zp0 0x10)) ∧
    reads [0b00001010] (.asl .acc) ∧
    reads [0b00001110, 0x34, 0x12] (.asl (.abs 0x1234)) ∧
    reads [0b00010110, 0x10] (.asl (.zpx 0x10)) ∧
    reads [0b00011110, 0x34, 0x12] (.asl (.abx 0x1234)) ∧
    reads [0b01000110, 0x10] (.lsr (.zp0 0x10)) ∧
    reads [0b01001010] (.lsr .acc) ∧
    reads [0b01001110, 0x34, 0x12] (.lsr (.abs 0x1234)) ∧
    reads [0b01010110, 0x10] (.lsr (.zpx 0x10)) ∧
    reads [0b01011110, 0x34, 0x12] (.lsr (.abx 0x1234)) ∧
    reads [0b00100110, 0x10] (.rol (.zp0 0x10)) ∧
    reads [0b00101010] (.rol .acc) ∧
    reads [0b00101110, 0x34, 0x12] (.rol (.abs 0x1234)) ∧
    reads [0b00110110, 0x10] (.rol (.zpx 0x10)) ∧
    reads [0b00111110, 0x34, 0x12] (.rol (.abx 0x1234)) ∧
    reads [0b01100110, 0x10] (.ror (.zp0 0x10)) ∧
    reads [0b01101010] (.ror .acc) ∧
    reads [0b01101110, 0x34, 0x12] (.ror (.abs 0x1234)) ∧
    reads [0b01110110, 0x10] (.ror (.zpx 0x10)) ∧
    reads [0b01111110, 0x34, 0x12] (.ror (.abx 0x1234)) := by decide

theorem test_decode_control_flow :
    reads [0b01001100, 0x34, 0x12] (.jmp (.abs 0x1234)) ∧
    reads [0b01101100, 0x34, 0x12] (.jmp (.ind 0x1234)) ∧
    reads [0b00100000, 0x34, 0x12] (.jsr 0x1234) ∧
    reads [0b01100000] (.rts) ∧
    reads [0b00000000] (.brk) ∧
    reads [0b01000000] (.rti) := by decide

theorem test_decode_branches :
    reads [0b10010000, 0x10] (.bcc 0x10) ∧
    reads [0b10110000, 0x10] (.bcs 0x10) ∧
    reads [0b11110000, 0x10] (.beq 0x10) ∧
    reads [0b00110000, 0x10] (.bmi 0x10) ∧
    reads [0b11010000, 0x10] (.bne 0x10) ∧
    reads [0b00010000, 0x10] (.bpl 0x10) ∧
    reads [0b01010000, 0x10] (.bvc 0x10) ∧
    reads [0b01110000, 0x10] (.bvs 0x10) := by decide

theorem test_decode_flags :
    reads [0b00011000] (.clc) ∧
    reads [0b11011000] (.cld) ∧
    reads [0b01011000] (.cli) ∧
    reads [0b10111000] (.clv) ∧
    reads [0b00111000] (.sec) ∧
    reads [0b11111000] (.sed) ∧
    reads [0b01111000] (.sei) ∧
    reads [0b11101010] (.nop) := by decide

theorem test_decode_xxx_imp :
    ∀ op ∈ ([0x02, 0x12, 0x1A, 0x22, 0x32, 0x3A, 0x42, 0x52, 0x5A, 0x62, 0x72, 0x7A, 0x92, 0xB2, 0xD2, 
       0xDA, 0xF2, 0xFA] : List Byte),
      reads [op] (.xxx op (.imp)) := by decide

theorem test_decode_xxx_izx :
    ∀ op ∈ ([0x03, 0x23, 0x43, 0x63, 0x83, 0xA3, 0xC3, 0xE3] : List Byte),
      reads [op, 0x10] (.xxx op (.mem (.izx 0x10))) := by decide

theorem test_decode_xxx_zp0 :
    ∀ op ∈ ([0x04, 0x07, 0x27, 0x44, 0x47, 0x64, 0x67, 0x87, 0xA7, 0xC7, 0xE7] : List Byte),
      reads [op, 0x10] (.xxx op (.mem (.zp0 0x10))) := by decide

theorem test_decode_xxx_imm :
    ∀ op ∈ ([0x0B, 0x2B, 0x4B, 0x6B, 0x80, 0x82, 0x89, 0x8B, 0xAB, 0xC2, 0xCB, 0xE2, 0xEB] : List Byte),
      reads [op, 0x10] (.xxx op (.imm 0x10)) := by decide

theorem test_decode_xxx_abs :
    ∀ op ∈ ([0x0C, 0x0F, 0x2F, 0x4F, 0x6F, 0x8F, 0xAF, 0xCF, 0xEF] : List Byte),
      reads [op, 0x34, 0x12] (.xxx op (.mem (.abs 0x1234))) := by decide

theorem test_decode_xxx_izy :
    ∀ op ∈ ([0x13, 0x33, 0x53, 0x73, 0x93, 0xB3, 0xD3, 0xF3] : List Byte),
      reads [op, 0x10] (.xxx op (.mem (.izy 0x10))) := by decide

theorem test_decode_xxx_zpx :
    ∀ op ∈ ([0x14, 0x17, 0x34, 0x37, 0x54, 0x57, 0x74, 0x77, 0xD4, 0xD7, 0xF4, 0xF7] : List Byte),
      reads [op, 0x10] (.xxx op (.mem (.zpx 0x10))) := by decide

theorem test_decode_xxx_aby :
    ∀ op ∈ ([0x1B, 0x3B, 0x5B, 0x7B, 0x9B, 0x9E, 0x9F, 0xBB, 0xBF, 0xDB, 0xFB] : List Byte),
      reads [op, 0x34, 0x12] (.xxx op (.mem (.aby 0x1234))) := by decide

theorem test_decode_xxx_abx :
    ∀ op ∈ ([0x1C, 0x1F, 0x3C, 0x3F, 0x5C, 0x5F, 0x7C, 0x7F, 0x9C, 0xDC, 0xDF, 0xFC, 0xFF] : List Byte),
      reads [op, 0x34, 0x12] (.xxx op (.mem (.abx 0x1234))) := by decide

theorem test_decode_xxx_zpy :
    ∀ op ∈ ([0x97, 0xB7] : List Byte),
      reads [op, 0x10] (.xxx op (.mem (.zpy 0x10))) := by decide

/-- R70: what the decoder refuses: no byte, and operand bytes that are missing. -/
theorem test_decode_truncated :
    decode defaultXxxModes [] = .error .noBytes ∧ decode defaultXxxModes [0xAD, 0x00] = .error (.truncated 0xAD) ∧
    decode defaultXxxModes [0x10] = .error (.truncated 0x10) := by decide

/-- The host's numbering: the second byte of the instruction is bits 15 to 8. -/
theorem test_decodeTableWord :
    decodeTableWord 16 0x10A9 = some (.lda (.imm 0x10)) ∧ decodeTableWord 24 0x12348D = some (.sta (.abs 0x1234)) ∧
    decodeTableWord 8 0xEA = some .nop := by decide

/-- `withFetchWord` on the reset state: the next step runs that instruction. -/
theorem test_withFetchWord :
    nextIs (fun t => t.a == 0x10 && t.pc == 2 && t.budget == 1) (step (State.reset.withFetchWord 16 0x10A9)) = true := by
  decide

/-! ## Instructions -/

/-! ### Transfers -/

/-- T4: `LDA $F0,X` (zero-page wrap). -/
theorem test_T4_lda_zpx_wraps :
    after { x := 0x20 } [0xB5, 0xF0] [(0x0010, 0x42)] []
      { a := 0x42, x := 0x20, pc := 0x8002 } 4 [] = true := by decide

/-- T9: `LDA ($FF),Y` (pointer wraps, cross). -/
theorem test_T9_lda_izy_pointer_wraps :
    after { y := 0x10 } [0xB1, 0xFF] [(0x0000, 0x02), (0x00FF, 0xF8), (0x0308, 0x77)] []
      { a := 0x77, y := 0x10, pc := 0x8002 } 6 [] = true := by decide

/-- T12: `LDX $02FF,Y` (cross). -/
theorem test_T12_ldx_aby_crosses :
    after { y := 0x02 } [0xBE, 0xFF, 0x02] [(0x0301, 0x33)] []
      { x := 0x33, y := 0x02, pc := 0x8003 } 5 [] = true := by decide

/-- T13: `LDY $0300,X` (no cross). -/
theorem test_T13_ldy_abx_no_cross :
    after { x := 0xFF, y := 0x09 } [0xBC, 0x00, 0x03] [(0x03FF, 0x00)] []
      { x := 0xFF, p := 0x26, pc := 0x8003 } 4 [] = true := by decide

/-- T17: `STA ($10),Y` (cross, no surcharge). -/
theorem test_T17_sta_izy_no_surcharge :
    after { a := 0xEE, y := 0xFF } [0x91, 0x10] [(0x0010, 0x01), (0x0011, 0x02)] []
      { a := 0xEE, y := 0xFF, pc := 0x8002 } 6 [(0x0300, 0xEE)] = true := by decide

/-- T18: `STA ($10,X)` (wrap). -/
theorem test_T18_sta_izx_wraps :
    after { a := 0xEE, x := 0xF0 } [0x81, 0x10] [(0x0000, 0x00), (0x0001, 0x03)] []
      { a := 0xEE, x := 0xF0, pc := 0x8002 } 6 [(0x0300, 0xEE)] = true := by decide

/-- T19: `STX $10,Y` (wrap). -/
theorem test_T19_stx_zpy_wraps :
    after { x := 0x44, y := 0xF8 } [0x96, 0x10] [] []
      { x := 0x44, y := 0xF8, pc := 0x8002 } 4 [(0x0008, 0x44)] = true := by decide

/-- T20: `STY $10,X`. -/
theorem test_T20_sty_zpx :
    after { x := 0x08, y := 0x44 } [0x94, 0x10] [] []
      { x := 0x08, y := 0x44, pc := 0x8002 } 4 [(0x0018, 0x44)] = true := by decide

/-- T23: `TAX`. -/
theorem test_T23_tax :
    after { a := 0x80 } [0xAA] [] []
      { a := 0x80, x := 0x80, p := 0xA4, pc := 0x8001 } 2 [] = true := by decide

/-- T24: `TAY`. -/
theorem test_T24_tay :
    after { y := 0x05 } [0xA8] [] []
      { p := 0x26, pc := 0x8001 } 2 [] = true := by decide

/-- T25: `TXA`. -/
theorem test_T25_txa :
    after { a := 0x80, x := 0x7F, p := 0xA4 } [0x8A] [] []
      { a := 0x7F, x := 0x7F, pc := 0x8001 } 2 [] = true := by decide

/-- T26: `TYA`. -/
theorem test_T26_tya :
    after { y := 0xFF } [0x98] [] []
      { a := 0xFF, y := 0xFF, p := 0xA4, pc := 0x8001 } 2 [] = true := by decide

/-- T27: `TSX`. -/
theorem test_T27_tsx :
    after { x := 0x07, s := 0x00 } [0xBA] [] []
      { s := 0x00, p := 0x26, pc := 0x8001 } 2 [] = true := by decide

/-- T28: `TXS` (no flags: Z stays 0). -/
theorem test_T28_txs_keeps_z_clear :
    after {} [0x9A] [] []
      { s := 0x00, pc := 0x8001 } 2 [] = true := by decide

/-- T29: `TXS` (no flags: N stays 0, Z stays 1). -/
theorem test_T29_txs_keeps_n_clear :
    after { x := 0x80, p := 0x26 } [0x9A] [] []
      { x := 0x80, s := 0x80, p := 0x26, pc := 0x8001 } 2 [] = true := by decide

/-! ### The stack -/

/-- S1: `PHA`. -/
theorem test_S1_pha :
    after { a := 0xAB } [0x48] [] []
      { a := 0xAB, s := 0xFC, pc := 0x8001 } 3 [(0x01FD, 0xAB)] = true := by decide

/-- S2: `PHA` (source scenario 4). -/
theorem test_S2_pha_wraps :
    after { a := 0x77, s := 0x00 } [0x48] [] []
      { a := 0x77, s := 0xFF, pc := 0x8001 } 3 [(0x0100, 0x77)] = true := by decide

/-- S3: `PHP` (pushes P with bits 4, 5 set). -/
theorem test_S3_php_sets_b_and_u :
    after {} [0x08] [] []
      { s := 0xFC, pc := 0x8001 } 3 [(0x01FD, 0x34)] = true := by decide

/-- S4: `PHP`. -/
theorem test_S4_php :
    after { p := 0xE7 } [0x08] [] []
      { s := 0xFC, p := 0xE7, pc := 0x8001 } 3 [(0x01FD, 0xF7)] = true := by decide

/-- S5: `PLA` (Z). -/
theorem test_S5_pla_zero :
    after { a := 0x55, s := 0xFC } [0x68] [(0x01FD, 0x00)] []
      { p := 0x26, pc := 0x8001 } 4 [] = true := by decide

/-- S6: `PLA` (S wraps FF to 00, N). -/
theorem test_S6_pla_wraps :
    after { s := 0xFF } [0x68] [(0x0100, 0x80)] []
      { a := 0x80, s := 0x00, p := 0xA4, pc := 0x8001 } 4 [] = true := by decide

/-- S7: `PLP` (B stays 0, U stays 1). -/
theorem test_S7_plp_keeps_b_clear :
    after { s := 0xFC } [0x28] [(0x01FD, 0xFF)] []
      { p := 0xEF, pc := 0x8001 } 4 [] = true := by decide

/-- S8: `PLP` (B stays 1, U stays 1). -/
theorem test_S8_plp_keeps_b_set :
    after { s := 0xFC, p := 0x34 } [0x28] [(0x01FD, 0x00)] []
      { p := 0x30, pc := 0x8001 } 4 [] = true := by decide

/-! ### Logic -/

/-- L1: `AND #$0F`. -/
theorem test_L1_and_zero :
    after { a := 0xF0 } [0x29, 0x0F] [] []
      { p := 0x26, pc := 0x8002 } 2 [] = true := by decide

/-- L2: `AND #$F0`. -/
theorem test_L2_and_negative :
    after { a := 0xF5 } [0x29, 0xF0] [] []
      { a := 0xF0, p := 0xA4, pc := 0x8002 } 2 [] = true := by decide

/-- L3: `ORA #$80`. -/
theorem test_L3_ora_imm :
    after { a := 0x01 } [0x09, 0x80] [] []
      { a := 0x81, p := 0xA4, pc := 0x8002 } 2 [] = true := by decide

/-- L4: `ORA $10`. -/
theorem test_L4_ora_zp0 :
    after {} [0x05, 0x10] [(0x0010, 0x00)] []
      { p := 0x26, pc := 0x8002 } 3 [] = true := by decide

/-- L6: `EOR #$FF`. -/
theorem test_L6_eor_imm :
    after { a := 0x0F } [0x49, 0xFF] [] []
      { a := 0xF0, p := 0xA4, pc := 0x8002 } 2 [] = true := by decide

/-- L7: `EOR $0210,X` (cross). -/
theorem test_L7_eor_abx_crosses :
    after { a := 0x0F, x := 0xF0 } [0x5D, 0x10, 0x02] [(0x0300, 0x8F)] []
      { a := 0x80, x := 0xF0, p := 0xA4, pc := 0x8003 } 5 [] = true := by decide

/-- L8: `BIT $10` (N, V from memory; Z from A and m). -/
theorem test_L8_bit_flags_from_memory :
    after { a := 0x01 } [0x24, 0x10] [(0x0010, 0xC0)] []
      { a := 0x01, p := 0xE6, pc := 0x8002 } 3 [] = true := by decide

/-- L11: `BIT $2002` (reads PPUSTATUS: value 00 after reset; the read clears VBlank and `w`). -/
theorem test_L11_bit_reads_ppustatus :
    after { a := 0xFF } [0x2C, 0x02, 0x20] [] []
      { a := 0xFF, p := 0x26, pc := 0x8003 } 4 [] = true := by decide

/-! ### Arithmetic -/

/-- A6: `ADC #$FF` (C in, C out, no V). -/
theorem test_A6_adc_carry_in_and_out :
    after { a := 0x80, p := 0x25 } [0x69, 0xFF] [] []
      { a := 0x80, p := 0xA5, pc := 0x8002 } 2 [] = true := by decide

/-- A7: `ADC #$09` with D=1 (binary all the same). -/
theorem test_A7_adc_ignores_d :
    after { a := 0x09, p := 0x2C } [0x69, 0x09] [] []
      { a := 0x12, p := 0x2C, pc := 0x8002 } 2 [] = true := by decide

/-- A12: `SBC #$80` (V, borrow). -/
theorem test_A12_sbc_overflow_and_borrow :
    after { a := 0x7F, p := 0x25 } [0xE9, 0x80] [] []
      { a := 0xFF, p := 0xE4, pc := 0x8002 } 2 [] = true := by decide

/-- A14: `SBC #$01` with D=1 (binary). -/
theorem test_A14_sbc_ignores_d :
    after { a := 0x10, p := 0x2D } [0xE9, 0x01] [] []
      { a := 0x0F, p := 0x2D, pc := 0x8002 } 2 [] = true := by decide

/-- A18: `CMP #$FF` (00 - FF = 01). -/
theorem test_A18_cmp_wraps :
    after {} [0xC9, 0xFF] [] []
      { pc := 0x8002 } 2 [] = true := by decide

/-- A19: `CMP #$01` (V untouched). -/
theorem test_A19_cmp_keeps_v :
    after { a := 0x80, p := 0x64 } [0xC9, 0x01] [] []
      { a := 0x80, p := 0x65, pc := 0x8002 } 2 [] = true := by decide

/-- A20: `CPX $10`. -/
theorem test_A20_cpx :
    after { x := 0x10 } [0xE4, 0x10] [(0x0010, 0x20)] []
      { x := 0x10, p := 0xA4, pc := 0x8002 } 3 [] = true := by decide

/-- A21: `CPY #$7F`. -/
theorem test_A21_cpy :
    after { y := 0xFF } [0xC0, 0x7F] [] []
      { y := 0xFF, p := 0xA5, pc := 0x8002 } 2 [] = true := by decide

/-- A22: `CPY $0200`. -/
theorem test_A22_cpy_equal :
    after {} [0xCC, 0x00, 0x02] [(0x0200, 0x00)] []
      { p := 0x27, pc := 0x8003 } 4 [] = true := by decide

/-- A23: `INC $10` (wrap, Z). -/
theorem test_A23_inc_wraps :
    after {} [0xE6, 0x10] [(0x0010, 0xFF)] []
      { p := 0x26, pc := 0x8002 } 5 [(0x0010, 0x00)] = true := by decide

/-- A25: `INC $02FF,X` (cross, no surcharge, one write). -/
theorem test_A25_inc_no_surcharge :
    after { x := 0x01 } [0xFE, 0xFF, 0x02] [(0x0300, 0x01)] []
      { x := 0x01, pc := 0x8003 } 7 [(0x0300, 0x02)] = true := by decide

/-- A27: `DEC $10,X` (zero-page wrap). -/
theorem test_A27_dec_wraps :
    after { x := 0xF0 } [0xD6, 0x10] [(0x0000, 0x01)] []
      { x := 0xF0, p := 0x26, pc := 0x8002 } 6 [(0x0000, 0x00)] = true := by decide

/-- A28: `DEC $0200` (C untouched). -/
theorem test_A28_dec_keeps_c :
    after { p := 0x25 } [0xCE, 0x00, 0x02] [(0x0200, 0x81)] []
      { p := 0xA5, pc := 0x8003 } 6 [(0x0200, 0x80)] = true := by decide

/-- A29: `INX`. -/
theorem test_A29_inx_wraps :
    after { x := 0xFF } [0xE8] [] []
      { p := 0x26, pc := 0x8001 } 2 [] = true := by decide

/-- A30: `INY`. -/
theorem test_A30_iny :
    after { y := 0x7F } [0xC8] [] []
      { y := 0x80, p := 0xA4, pc := 0x8001 } 2 [] = true := by decide

/-- A31: `DEX`. -/
theorem test_A31_dex_wraps :
    after {} [0xCA] [] []
      { x := 0xFF, p := 0xA4, pc := 0x8001 } 2 [] = true := by decide

/-- A32: `DEY`. -/
theorem test_A32_dey :
    after { y := 0x01 } [0x88] [] []
      { p := 0x26, pc := 0x8001 } 2 [] = true := by decide

/-! ### Shifts -/

/-- H2: `ASL A` (old C discarded). -/
theorem test_H2_asl_discards_c :
    after { a := 0x40, p := 0x25 } [0x0A] [] []
      { a := 0x80, p := 0xA4, pc := 0x8001 } 2 [] = true := by decide

/-- H4: `ASL $0200,X`. -/
theorem test_H4_asl_abx :
    after { x := 0xFF } [0x1E, 0x00, 0x02] [(0x02FF, 0x01)] []
      { x := 0xFF, pc := 0x8003 } 7 [(0x02FF, 0x02)] = true := by decide

/-- H5: `LSR A`. -/
theorem test_H5_lsr_acc :
    after { a := 0x01, p := 0xA4 } [0x4A] [] []
      { p := 0x27, pc := 0x8001 } 2 [] = true := by decide

/-- H6: `LSR $10,X`. -/
theorem test_H6_lsr_zpx :
    after { x := 0x01, p := 0x25 } [0x56, 0x10] [(0x0011, 0xFE)] []
      { x := 0x01, pc := 0x8002 } 6 [(0x0011, 0x7F)] = true := by decide

/-- H7: `ROL A` (C in to bit 0, bit 7 to C). -/
theorem test_H7_rol_acc :
    after { a := 0x80, p := 0x25 } [0x2A] [] []
      { a := 0x01, p := 0x25, pc := 0x8001 } 2 [] = true := by decide

/-- H9: `ROL $0200`. -/
theorem test_H9_rol_abs :
    after { p := 0x25 } [0x2E, 0x00, 0x02] [(0x0200, 0x55)] []
      { p := 0xA4, pc := 0x8003 } 6 [(0x0200, 0xAB)] = true := by decide

/-- H10: `ROR A` (C in to bit 7). -/
theorem test_H10_ror_acc :
    after { a := 0x01, p := 0x25 } [0x6A] [] []
      { a := 0x80, p := 0xA5, pc := 0x8001 } 2 [] = true := by decide

/-- H13: `ROR $02FF,X` (cross, no surcharge). -/
theorem test_H13_ror_abx_no_surcharge :
    after { x := 0x01 } [0x7E, 0xFF, 0x02] [(0x0300, 0x00)] []
      { x := 0x01, p := 0x26, pc := 0x8003 } 7 [(0x0300, 0x00)] = true := by decide

/-! ### Control flow -/

/-- C2: `JMP ($02FF)` (source scenario 3). -/
theorem test_C2_jmp_ind_stays_in_page :
    after {} [0x6C, 0xFF, 0x02] [(0x0200, 0x12), (0x02FF, 0x34), (0x0300, 0xCD)] []
      { pc := 0x1234 } 5 [] = true := by decide

/-- C3: `JMP ($0300)`. -/
theorem test_C3_jmp_ind :
    after {} [0x6C, 0x00, 0x03] [(0x0300, 0x78), (0x0301, 0x56)] []
      { pc := 0x5678 } 5 [] = true := by decide

/-- C4: `JSR $9000` (pushes 8002). -/
theorem test_C4_jsr :
    after {} [0x20, 0x00, 0x90] [] []
      { s := 0xFB, pc := 0x9000 } 6 [(0x01FC, 0x02), (0x01FD, 0x80)] = true := by decide

/-- C5: `JSR $1234` at 80FE (pushes 8100; S wraps). -/
theorem test_C5_jsr_wraps :
    after { s := 0x01, pc := 0x80FE } [0x20, 0x34, 0x12] [] []
      { s := 0xFF, pc := 0x1234 } 6 [(0x0100, 0x00), (0x0101, 0x81)] = true := by decide

/-- C6: `RTS`. -/
theorem test_C6_rts :
    after { s := 0xFB } [0x60] [(0x01FC, 0x02), (0x01FD, 0x80)] []
      { pc := 0x8003 } 6 [] = true := by decide

/-- C7: `RTS` (S wraps; FFFF + 1 wraps to 0000). -/
theorem test_C7_rts_wraps :
    after { s := 0xFE } [0x60] [(0x0100, 0xFF), (0x01FF, 0xFF)] []
      { s := 0x00, pc := 0x0000 } 6 [] = true := by decide

/-- C8: `BRK` (pushes 8002 and P with B, I, U set). -/
theorem test_C8_brk :
    after { p := 0x20 } [0x00] [] [(0x7FFE, 0x00), (0x7FFF, 0x90)]
      { s := 0xFA, p := 0x34, pc := 0x9000 } 7 [(0x01FB, 0x34), (0x01FC, 0x02), (0x01FD, 0x80)] = true := by decide

/-- C9: `BRK` at 80FF (pushes 8101; S wraps). -/
theorem test_C9_brk_wraps :
    after { s := 0x01, p := 0xE3, pc := 0x80FF } [0x00] [] [(0x7FFE, 0x34), (0x7FFF, 0x12)]
      { s := 0xFE, p := 0xF7, pc := 0x1234 } 7 [(0x0100, 0x01), (0x0101, 0x81), (0x01FF, 0xF7)] = true := by decide

/-- C10: `RTI` (B stays 0). -/
theorem test_C10_rti_keeps_b_clear :
    after { s := 0xFA } [0x40] [(0x01FB, 0xC3), (0x01FC, 0x02), (0x01FD, 0x80)] []
      { p := 0xE3, pc := 0x8002 } 6 [] = true := by decide

/-- C11: `RTI` (B stays 1, I pulled as 0). -/
theorem test_C11_rti_keeps_b_set :
    after { s := 0xFA, p := 0x34 } [0x40] [(0x01FB, 0x10), (0x01FC, 0x00), (0x01FD, 0x90)] []
      { p := 0x30, pc := 0x9000 } 6 [] = true := by decide

/-- C12: `BNE +5` taken. -/
theorem test_C12_bne_taken :
    after {} [0xD0, 0x05] [] []
      { pc := 0x8007 } 3 [] = true := by decide

/-- C13: `BNE +5` not taken. -/
theorem test_C13_bne_not_taken :
    after { p := 0x26 } [0xD0, 0x05] [] []
      { p := 0x26, pc := 0x8002 } 2 [] = true := by decide

/-- C14: `BEQ -4` taken, same page. -/
theorem test_C14_beq_same_page :
    after { p := 0x26, pc := 0x8010 } [0xF0, 0xFC] [] []
      { p := 0x26, pc := 0x800E } 3 [] = true := by decide

/-- C15: `BEQ -4` taken, page cross (8002 to 7FFE). -/
theorem test_C15_beq_crosses :
    after { p := 0x26 } [0xF0, 0xFC] [] []
      { p := 0x26, pc := 0x7FFE } 4 [] = true := by decide

/-- C16: `BCC +$7F` at 8080 (8082 to 8101, cross). -/
theorem test_C16_bcc_crosses :
    after { pc := 0x8080 } [0x90, 0x7F] [] []
      { pc := 0x8101 } 4 [] = true := by decide

/-- C22: `BCC +0` at 80FE (base 8100, target 8100: no cross). -/
theorem test_C22_bcc_base_is_next :
    after { pc := 0x80FE } [0x90, 0x00] [] []
      { pc := 0x8100 } 3 [] = true := by decide

/-- C17: `BCS +$7D` at 8080 (to 80FF, no cross). -/
theorem test_C17_bcs :
    after { p := 0x25, pc := 0x8080 } [0xB0, 0x7D] [] []
      { p := 0x25, pc := 0x80FF } 3 [] = true := by decide

/-- C18: `BMI -128` (8042 to 7FC2, cross). -/
theorem test_C18_bmi_crosses :
    after { p := 0xA4, pc := 0x8040 } [0x30, 0x80] [] []
      { p := 0xA4, pc := 0x7FC2 } 4 [] = true := by decide

/-- C19: `BPL +0` (taken, lands on the next instruction). -/
theorem test_C19_bpl_zero_offset :
    after {} [0x10, 0x00] [] []
      { pc := 0x8002 } 3 [] = true := by decide

/-- C20: `BVC +2` not taken. -/
theorem test_C20_bvc_not_taken :
    after { p := 0x64 } [0x50, 0x02] [] []
      { p := 0x64, pc := 0x8002 } 2 [] = true := by decide

/-- C21: `BVS +2` taken. -/
theorem test_C21_bvs_taken :
    after { p := 0x64 } [0x70, 0x02] [] []
      { p := 0x64, pc := 0x8004 } 3 [] = true := by decide

/-! ### Flags, NOP, XXX -/

/-- F1: `CLC`. -/
theorem test_F1_clc :
    after { p := 0xE7 } [0x18] [] []
      { p := 0xE6, pc := 0x8001 } 2 [] = true := by decide

/-- F2: `SEC`. -/
theorem test_F2_sec :
    after {} [0x38] [] []
      { p := 0x25, pc := 0x8001 } 2 [] = true := by decide

/-- F3: `CLD`. -/
theorem test_F3_cld :
    after { p := 0x2C } [0xD8] [] []
      { pc := 0x8001 } 2 [] = true := by decide

/-- F4: `SED`. -/
theorem test_F4_sed :
    after {} [0xF8] [] []
      { p := 0x2C, pc := 0x8001 } 2 [] = true := by decide

/-- F5: `CLI`. -/
theorem test_F5_cli :
    after {} [0x58] [] []
      { p := 0x20, pc := 0x8001 } 2 [] = true := by decide

/-- F6: `SEI`. -/
theorem test_F6_sei :
    after { p := 0x20 } [0x78] [] []
      { pc := 0x8001 } 2 [] = true := by decide

/-- F7: `CLV`. -/
theorem test_F7_clv :
    after { p := 0xE4 } [0xB8] [] []
      { p := 0xA4, pc := 0x8001 } 2 [] = true := by decide

/-- F8: `NOP`. -/
theorem test_F8_nop :
    after { a := 0x01, x := 0x02, y := 0x03, p := 0xE7 } [0xEA] [] []
      { a := 0x01, x := 0x02, y := 0x03, p := 0xE7, pc := 0x8001 } 2 [] = true := by decide

/-- X4: `XXX` byte 0C (ABS) with operand 2002: PPUSTATUS is not read. -/
theorem test_X4_xxx_does_not_read_target :
    after {} [0x0C, 0x02, 0x20] [] []
      { pc := 0x8003 } 4 [] = true := by decide

/-- X8: `XXX` byte B3 (IZY), page cross, no surcharge. -/
theorem test_X8_xxx_no_surcharge :
    after { y := 0xFF } [0xB3, 0x10] [(0x0010, 0x02), (0x0011, 0x20)] []
      { y := 0xFF, pc := 0x8002 } 5 [] = true := by decide

/-- R199, D18: with mode IMM the operand byte stands at `ea` and is not read, so the controller at `0x4016` does not
shift; with mode ZP0 the operand byte is read. The opcode byte 04 is the value of `0x4015`. -/
theorem test_xxx_imm_operand_not_read :
    let st := (start { pc := 0x4015 } [] [] []).setApu { ({} : Apu) with triangle := { length := 1 } }
    let st := st.setPads { shift1 := 0xC0 }
    nextIs (fun t => t.pc == 0x4017 && t.pads.shift1 == 0xC0) (boundaryAction (withSlots .imm 2 st)) = true ∧
    nextIs (fun t => t.pc == 0x4017 && t.pads.shift1 == 0x80) (boundaryAction (withSlots .zp0 3 st)) = true := by
  decide

/-- R199: with mode IND the pointer is read: `0x2002` clears the write latch, PC passes three bytes. -/
theorem test_xxx_ind_reads_pointer :
    nextIs (fun t => t.pc == 0x8003 && !t.ppu.w && t.budget == 6)
      (boundaryAction (withSlots .ind 6 ((start {} [0x02, 0x02, 0x20] [] []).setPpu { w := true }))) = true := by
  decide

/-- R199, R75, R80: modes ACC and REL take 1 and 2 bytes and do nothing else. -/
theorem test_xxx_acc_rel :
    nextIs (shows { pc := 0x8001 } 2 []) (boundaryAction (withSlots .acc 2 (start {} [0x04, 0x7F] [] []))) = true ∧
    nextIs (shows { pc := 0x8002 } 3 []) (boundaryAction (withSlots .rel 3 (start {} [0x04, 0x7F] [] []))) = true := by
  decide

/-- R72, R90: another `base_cycles`, with the page-cross cycle of `LDA $80FF,X` on top. -/
theorem test_other_base_cycles :
    nextIs (shows { x := 0x01, a := 0x5A, pc := 0x8003 } 8 [])
      (boundaryAction (withSlots .abx 7 (start { x := 0x01 } [0xBD, 0xFF, 0x80] [] [(0x100, 0x5A)]))) = true := by
  decide

/-! ### Interrupts -/

/-- I1: NMI pending, I = 1. -/
theorem test_I1_nmi_ignores_i :
    nextIs (fun t => shows { s := 0xFA, p := 0xA5, pc := 0xA000 } 8 [(0x01FD, 0x80), (0x01FC, 0x00), (0x01FB, 0xA5)] t &&
        t.didNmi && !t.nmiPending)
      (boundaryAction ((start { p := 0xA5 } [0xEA] [] [(0x7FFA, 0x00), (0x7FFB, 0xA0)]).setNmiPending true)) = true := by
  decide

/-- I2: IRQ pending, I = 0. -/
theorem test_I2_irq :
    nextIs (fun t => shows { s := 0xFA, p := 0x67, pc := 0x9000 } 7 [(0x01FD, 0x80), (0x01FC, 0x00), (0x01FB, 0x67)] t &&
        t.didIrq && !t.irqPending)
      (boundaryAction ((start { p := 0x63 } [0xEA] [] [(0x7FFE, 0x00), (0x7FFF, 0x90)]).setIrqPending true)) = true := by
  decide

/-- I3: IRQ pending, I = 1: the NOP runs and the latch stays. -/
theorem test_I3_irq_masked :
    nextIs (fun t => shows { pc := 0x8001 } 2 [] t && t.irqPending)
      (boundaryAction ((start {} [0xEA] [] [(0x7FFE, 0x00), (0x7FFF, 0x90)]).setIrqPending true)) = true := by
  decide

/-- I4a: both pending, I = 0: NMI first, the IRQ latch stays. -/
theorem test_I4a_nmi_first :
    nextIs (fun t => shows { s := 0xFA, p := 0x24, pc := 0xA000 } 8 [(0x01FB, 0x24)] t && t.irqPending)
      (boundaryAction (((start { p := 0x20 } [0xEA] [] [(0x7FFA, 0x00), (0x7FFB, 0xA0)]).setNmiPending true).setIrqPending
        true)) = true := by
  decide

/-! ### Platform registers -/

/-- Bus writes, in order. -/
def writes (l : List (Addr × Byte)) (st : State) : State := l.foldl (fun st w => busWrite w.1 w.2 st) st

/-- U1: `0x2006` twice. -/
theorem test_U1_ppuaddr :
    (writes [(0x2006, 0x3F)] State.reset).ppu.t = 0x3F00 ∧ (writes [(0x2006, 0x3F)] State.reset).ppu.w = true ∧
    (writes [(0x2006, 0x3F), (0x2006, 0x10)] State.reset).ppu.v = 0x3F10 ∧
    (writes [(0x2006, 0x3F), (0x2006, 0x10)] State.reset).ppu.w = false := by decide

/-- U3: a read of `0x2002` clears the write latch. -/
theorem test_U3_status_read_clears_latch :
    (writes [(0x2006, 0x08), (0x2006, 0x00)] (busRead 0x2002 (writes [(0x2006, 0x21)] State.reset)).2).ppu.v = 0x0800 := by
  decide

/-- U4's first two reads: the buffered read of `0x2007`. -/
theorem test_U4_ppudata_buffer :
    let st := State.reset.setPpu { State.reset.ppu with v := 0x2000, nt := [(0, 0xAB), (1, 0xCD)] }
    (busRead 0x2007 st).1 = 0x00 ∧ (busRead 0x2007 (busRead 0x2007 st).2).1 = 0xAB ∧
    (busRead 0x2007 st).2.ppu.v = 0x2001 := by decide

/-- U5: the alias of `0x3F10` and the unbuffered palette read. -/
theorem test_U5_palette_alias :
    let st := writes [(0x2006, 0x3F), (0x2006, 0x10), (0x2007, 0x2A), (0x2006, 0x3F), (0x2006, 0x00)] State.reset
    (busRead 0x2007 st).1 = 0x2A := by decide

/-- U8: `V` wraps modulo 2^15. -/
theorem test_U8_v_wraps :
    (writes [(0x2007, 0x00)] (State.reset.setPpu { State.reset.ppu with v := 0x7FFF })).ppu.v = 0 := by decide

/-- U9: `0x2005` twice. -/
theorem test_U9_scroll :
    let p := (writes [(0x2005, 0x7D), (0x2005, 0x5E)] State.reset).ppu
    coarseX p.t = 0x0F ∧ p.fineX = 5 ∧ coarseY p.t = 0x0B ∧ fineY p.t = 6 ∧ p.w = false := by decide

/-- U11: PPUSTATUS with the last written low bits. -/
theorem test_U11_status :
    let st := State.reset.setPpu { State.reset.ppu with status := 0xE0, lastWrite := 0x5F }
    (busRead 0x2002 st).1 = 0xFF ∧ (busRead 0x2002 (busRead 0x2002 st).2).1 = 0x7F := by decide

/-- U12: `oam_addr` wraps. -/
theorem test_U12_oam :
    let p := (writes [(0x2003, 0xFF), (0x2004, 0x12), (0x2004, 0x34)] State.reset).ppu
    p.oam.read 0xFF = 0x12 ∧ p.oam.read 0 = 0x34 ∧ p.oamAddr = 1 := by decide

/-- U14: horizontal mirroring: `0x2400` is `0x2000`. -/
theorem test_U14_mirroring :
    (writes [(0x2006, 0x24), (0x2006, 0x00), (0x2007, 0x55)] State.reset).ppu.nt.read 0 = 0x55 := by decide

/-- K1's first reads: with A and Start pressed, 1 0 0 1. -/
theorem test_K1_controller :
    let st := writes [(0x4016, 0x01), (0x4016, 0x00)] (State.reset.setPads { State.reset.pads with parallel1 := 0x90 })
    let r := fun k => (busRead 0x4016 ((fun s => (busRead 0x4016 s).2)^[k] st)).1
    r 0 = 1 ∧ r 1 = 0 ∧ r 2 = 0 ∧ r 3 = 1 := by decide

/-- Q1, Q2: the noise LFSR in both modes. -/
theorem test_Q1_Q2_lfsr :
    (lfsrShift false)^[14] 1 = 0x0002 ∧ (lfsrShift false)^[15] 1 = 0x4001 ∧ (lfsrShift false)^[16] 1 = 0x6000 ∧
    (lfsrShift true)^[9] 1 = 0x0040 ∧ (lfsrShift true)^[10] 1 = 0x4020 := by decide

/-- Q7, Q8: the mixer at full and at no output. -/
theorem test_Q7_Q8_mixer :
    (mixLevel Launch.default 15 15 15 15).floorMul 256 = 164 ∧ (mixLevel Launch.default 0 0 0 0).floorMul 256 = 0 := by
  decide

/-- R7, R386, R391: another `length_table` and another `triangle_table`. -/
theorem test_other_apu_tables :
    let l := { Launch.default with lengthTable := Vector.replicate 32 7, triangleTable := Vector.replicate 32 9 }
    let st := writes [(0x4015, 0x01), (0x4003, 0x08)] { State.reset with launch := l }
    st.apu.pulse1.length = 7 ∧ st.apu.triangle.output l = 9 := by decide

/-- Q4, Q5, Q6: enabling pulse 1, its length, and the read of `0x4015`. -/
theorem test_Q4_length :
    let st := writes [(0x4015, 0x01), (0x4003, 0x08)] State.reset
    st.apu.pulse1.length = 254 ∧ (busRead 0x4015 st).1 = 0x01 ∧
    (busRead 0x4015 (writes [(0x4015, 0x00)] st)).1 = 0x00 ∧
    (writes [(0x4003, 0x08)] State.reset).apu.pulse1.length = 0 := by decide

/-! ## Witnesses: states and operands that meet the hypotheses of the obligations -/

/-- A good state at a boundary on a CPU tick, with a program in ROM. -/
def base : State := start { a := 0x80, p := 0x21, pc := 0x8000 } [0xA9, 0x10, 0xEA] [(0x0200, 0x5C)] []

theorem witness_DecodeOfEncode :
    Instr.WellFormed defaultXxxModes (.lda (.izy 0xFF)) = true ∧ Instr.WellFormed defaultXxxModes (.xxx 0xFF (.mem (.abx 0xFFFF))) = true := by decide

theorem witness_EncodeOfDecode : reads [0x6C, 0xFF, 0xFF] (.jmp (.ind 0xFFFF)) = true ∧ 
    decode defaultXxxModes [0x00, 0xA9] = .ok (.brk, [0xA9]) := by
  decide

/-- Its clauses, for an opcode with two operand bytes: an unassigned one, `n = 2` with two bytes and with one. -/
theorem witness_EveryByteDecodes :
    isUnassigned 0x0C = true ∧ 2 ≤ ([0x00, 0x20] : List Byte).length ∧ ([0x00] : List Byte).length < 2 := by decide

theorem witness_FetchReadsTheInstruction :
    decode base.launch.xxxMode
        [(fetchByte base).1, (fetchByte (fetchByte base).2).1, (fetchByte (fetchByte (fetchByte base).2).2).1] =
      .ok (.lda (.imm 0x10), [0xEA]) := by decide +kernel

/-- Its clause for an XXX of mode IMM. -/
theorem witness_FetchReadsTheInstruction_imm :
    let st := start {} [0x80, 0x34, 0x12] [] []
    decode st.launch.xxxMode
        [(fetchByte st).1, (fetchByte (fetchByte st).2).1, (fetchByte (fetchByte (fetchByte st).2).2).1] =
      .ok (.xxx 0x80 (.imm 0x34), [0x12]) := by decide +kernel

/-- The premises of `StepRunsTheDecodedInstruction` in their order. -/
theorem witness_StepRunsTheDecodedInstruction :
    let st := ppuTick (hostPhase base)
    cpuTurn st = true ∧ st.halted = false ∧ st.budget = 0 ∧ st.nmiPending = false ∧ st.irqPending = false ∧
    decode base.launch.xxxMode [busPeek st.pc st, busPeek (st.pc + 1) st, busPeek (st.pc + 2) st] = .ok (.lda (.imm 0x10), [0xEA]) ∧
    (∀ k, k < (Instr.lda (.imm 0x10)).length → (route st.launch.cart (st.pc + BitVec.ofNat 16 k)).isStorage = true) :=
  ⟨by decide, by decide, by decide, by decide, by decide, by decide +kernel, by decide⟩

/-- The other way its interrupt premise holds: an IRQ pending that I masks. -/
theorem witness_StepRunsTheDecodedInstruction_masked :
    let st := ppuTick (hostPhase ((base.setIrqPending true).setP 0x24))
    st.irqPending = true ∧ st.flag .i = true ∧ st.nmiPending = false ∧ cpuTurn st = true ∧ st.budget = 0 := by decide

/-- `base` is good. -/
theorem base_ok : base.Ok where
  unused := by decide
  ram_sized := ⟨by decide, by decide⟩
  prgRam_wf := by decide
  launch := by
    have e : base.launch = { Launch.default with cart := base.launch.cart } := rfl
    rw [e]
    exact Launch.ok_default.withCart ⟨by decide, by decide⟩
  ppu := ⟨by decide, by decide, by decide, by decide, by decide, ⟨by decide, by decide⟩, ⟨by decide, by decide⟩,
    ⟨by decide, by decide⟩, by decide⟩
  apu := ⟨by decide, by decide, by decide⟩

/-- `StepKeepsOk` and `LaunchParametersAreFixed`: a good state that steps. -/
theorem witness_StepKeepsOk : base.Ok ∧ nextIs (fun t => t.a == 0x10 && t.pc == 0x8002) (step base) = true :=
  ⟨base_ok, by decide⟩

/-- `ReadSideEffects`, each clause at the ends of its range. -/
theorem witness_ReadSideEffects :
    (0x2000 ≤ (0x2002 : Addr).toNat ∧ (0x3FFA : Addr).toNat < 0x4000 ∧ (0x2002 : Addr).toNat % 8 = 2 ∧ (0x3FFA : Addr).toNat % 8 = 2) ∧
    (0x2000 ≤ (0x2007 : Addr).toNat ∧ (0x3FFF : Addr).toNat < 0x4000 ∧ (0x2007 : Addr).toNat % 8 = 7 ∧ (0x3FFF : Addr).toNat % 8 = 7) ∧
    (0x4016 : Addr).toNat = 0x4016 ∧ (0x4017 : Addr).toNat = 0x4017 ∧
    ∀ a ∈ ([0x0000, 0x1FFF, 0x2000, 0x2001, 0x2003, 0x3FF8, 0x3FFE, 0x4000, 0x4015, 0x4018, 0xFFFF] : List Addr),
      ¬ (0x2000 ≤ a.toNat ∧ a.toNat < 0x4000 ∧ (a.toNat % 8 = 2 ∨ a.toNat % 8 = 7)) ∧
      a.toNat ≠ 0x4016 ∧ a.toNat ≠ 0x4017 := by simp

/-- `MirrorsForward`, both mirrors at both ends. -/
theorem witness_MirrorsForward :
    (∀ a ∈ ([0x0800, 0x1FFF] : List Addr), 0x0800 ≤ a.toNat ∧ a.toNat ≤ 0x1FFF) ∧
    (∀ a ∈ ([0x2008, 0x3FFF] : List Addr), 0x2008 ≤ a.toNat ∧ a.toNat ≤ 0x3FFF) := by simp

/-- `MapperZero`: with and without PRG-RAM, and the ends of its three ranges. -/
theorem witness_MapperZero :
    base.launch.cart.inserted = true ∧ base.launch.cart.prgRamLog = some 13 ∧
    (∃ c : Cartridge, c.inserted = true ∧ c.prgRamLog = none) ∧
    (∀ a ∈ ([0x4020, 0x5FFF] : List Addr), 0x4020 ≤ a.toNat ∧ a.toNat ≤ 0x5FFF) ∧
    (∀ a ∈ ([0x6000, 0x7FFF] : List Addr), 0x6000 ≤ a.toNat ∧ a.toNat ≤ 0x7FFF) ∧
    (∀ a ∈ ([0x8000, 0xFFFF] : List Addr), 0x8000 ≤ a.toNat) :=
  ⟨by decide, by decide, ⟨{ base.launch.cart with prgRamLog := none }, by decide, rfl⟩, by simp, by simp, by simp⟩

/-- `UnownedAddresses`: both kinds, at the ends of their ranges. -/
theorem witness_UnownedAddresses :
    (∀ a ∈ ([0x4018, 0x401F] : List Addr), 0x4018 ≤ a.toNat ∧ a.toNat ≤ 0x401F) ∧
    (∀ a ∈ ([0x4020, 0xFFFF] : List Addr), 0x4020 ≤ a.toNat) ∧
    ∃ st : State, st.launch.cart.inserted = false :=
  ⟨by simp, by simp,
    { base with launch := { base.launch with cart := { base.launch.cart with inserted := false } } }, rfl⟩

/-- `MemoryReadAfterWrite`: a mirror of a written byte, another byte, and a write to ROM. -/
theorem witness_MemoryReadAfterWrite :
    let c := base.launch.cart
    ((route c 0x1FFF).isStorage = true ∧ (route c 0x07FF).isWritable = true ∧ route c 0x1FFF = route c 0x07FF) ∧
    ((route c 0x0000).isStorage = true ∧ route c 0x0000 ≠ route c 0x07FF) ∧
    ((route c 0x8000).isStorage = true ∧ (route c 0x8000).isWritable = false) ∧
    ((route c 0x7FFF).isStorage = true ∧ (route c 0x7FFF).isWritable = true) := by decide

/-- `LengthStaysZero`: lengths that are 0, and registers next to the four load registers. -/
theorem witness_LengthStaysZero :
    base.apu.pulse1.length = 0 ∧ base.apu.pulse2.length = 0 ∧ base.apu.triangle.length = 0 ∧ base.apu.noise.length = 0 ∧
    (0x02 ≠ 0x03 ∧ 0x06 ≠ 0x07 ∧ 0x0A ≠ 0x0B ∧ 0x0E ≠ 0x0F) := by decide

/-- `EffectiveAddresses`: the base of `(zp),Y` with the pointer at `0xFF` and `0x00`. -/
theorem witness_EffectiveAddresses :
    ∃ b : Addr, b = word (busPeek (BitVec.ofNat 16 (((0xFF : Byte).toNat + 1) % 256)) base) (busPeek (zext16 0xFF) base) :=
  ⟨_, rfl⟩

/-- `ShiftMemory`: every memory form. -/
theorem witness_ShiftMemory :
    ShiftForm.operand (.zp0 0xFF) = some (.zp0 0xFF) ∧ ShiftForm.operand (.zpx 0xFF) = some (.zpx 0xFF) ∧
    ShiftForm.operand (.abs 0xFFFF) = some (.abs 0xFFFF) ∧ ShiftForm.operand (.abx 0xFFFF) = some (.abx 0xFFFF) := by
  decide

/-- `Jump`: the high address at and next to the end of a page. -/
theorem witness_Jump :
    (0x0200 : Addr) = (if (0x02FF : Addr).toNat % 256 = 255 then (0x02FF : Addr) &&& 0xFF00 else 0x02FF + 1) ∧
    (0x02FF : Addr) = (if (0x02FE : Addr).toNat % 256 = 255 then (0x02FE : Addr) &&& 0xFF00 else 0x02FE + 1) := by decide

/-- `NoOperations`: every mode but IND, and the high address of a pointer at and next to the end of a page. -/
theorem witness_NoOperations :
    (∀ f ∈ ([.imp, .acc, .imm 0, .rel 0, .mem (.zp0 0), .mem (.zpx 0), .mem (.zpy 0), .mem (.abs 0), .mem (.abx 0),
      .mem (.aby 0), .mem (.izx 0), .mem (.izy 0)] : List XxxForm), f.mode ≠ .ind) ∧
    (0x0200 : Addr) = (if (0x02FF : Addr).toNat % 256 = 255 then (0x02FF : Addr) &&& 0xFF00 else 0x02FF + 1) ∧
    (0x02FF : Addr) = (if (0x02FE : Addr).toNat % 256 = 255 then (0x02FE : Addr) &&& 0xFF00 else 0x02FE + 1) := by decide

/-- `Branches`: the same branch taken and not taken. -/
theorem witness_Branches :
    (∃ st : State, (Instr.beq 0xFC, true) ∈ [(Instr.bcc 0xFC, !st.flag .c), (.bcs 0xFC, st.flag .c), (.beq 0xFC, st.flag .z)]) ∧
    (∃ st : State, (Instr.beq 0xFC, false) ∈ [(Instr.bcc 0xFC, !st.flag .c), (.bcs 0xFC, st.flag .c), (.beq 0xFC, st.flag .z)]) :=
  ⟨⟨base.setP 0x26, by decide⟩, ⟨base.setP 0x24, by decide⟩⟩

theorem witness_FlagInstructions :
    (Instr.sei, Flag.i, true) ∈ [(Instr.clc, Flag.c, false), (.cld, .d, false), (.cli, .i, false), (.clv, .v, false),
      (.sec, .c, true), (.sed, .d, true), (.sei, .i, true)] := by decide

/-- `TrapRoundTrip`: both vectors, in a state with U = 1. -/
theorem witness_TrapRoundTrip :
    base.flag .u = true ∧ ((0xFFFA : Addr) = 0xFFFA ∨ (0xFFFA : Addr) = 0xFFFE) ∧
    ((0xFFFE : Addr) = 0xFFFA ∨ (0xFFFE : Addr) = 0xFFFE) := by decide

/-- The state after one `ROL A`. -/
def rolNext (st : State) : State :=
  match exec (.rol .acc) st with
  | .next t => t
  | .fault _ => st
  | .refused _ => st

/-- `RotateRoundTrips`: nine states, each the next of the one before. -/
theorem witness_RotateRoundTrips :
    ∃ s : Nat → State, ∀ k, k < 9 → exec (.rol .acc) (s k) = .next (s (k + 1)) :=
  ⟨fun k => Nat.rec base (fun _ st => rolNext st) k, fun _ _ => rfl⟩

theorem witness_NmiService :
    let st := base.setNmiPending true
    st.halted = false ∧ st.budget = 0 ∧ st.nmiPending = true := by decide

theorem witness_IrqService :
    let st := base.setIrqPending true
    st.halted = false ∧ st.budget = 0 ∧ st.nmiPending = false ∧ st.irqPending = true ∧ st.flag .i = false := by decide

/-- `CycleOrder`: each of its three clauses. -/
theorem witness_CycleOrder :
    (base.setHalted true).halted = true ∧
    ((base.setBudget 1).halted = false ∧ 0 < (base.setBudget 1).budget) ∧
    (base.halted = false ∧ base.budget = 0 ∧ base.nmiPending = false ∧ base.irqPending = false) := by decide

/-- `ResetProcedure`: what `reset()` gives, from the vector, and `reset(pc)`. -/
theorem witness_ResetProcedure :
    (∃ st t : State, t = consoleReset none st ∧ t.pc = 0x1234) ∧
    (∃ st t : State, t = consoleReset (some 0xC000) st ∧ t.pc = 0xC000) :=
  ⟨⟨start {} [] [] [(0x7FFC, 0x34), (0x7FFD, 0x12)], _, rfl, by decide⟩, ⟨base, _, rfl, by decide⟩⟩

/-- `OamDmaCopies`: the pages at the ends of the two ranges that hold no device register. -/
theorem witness_OamDmaCopies :
    ((0x00 : Byte).toNat < 0x20 ∨ 0x41 ≤ (0x00 : Byte).toNat) ∧ ((0x1F : Byte).toNat < 0x20 ∨ 0x41 ≤ (0x1F : Byte).toNat) ∧
    ((0x41 : Byte).toNat < 0x20 ∨ 0x41 ≤ (0x41 : Byte).toNat) ∧ ((0xFF : Byte).toNat < 0x20 ∨ 0x41 ≤ (0xFF : Byte).toNat) := by
  simp

/-- One byte copied by an OAM DMA from page 2. -/
theorem test_oam_dma :
    (busWrite 0x4014 0x02 base).ppu.oam.read 0 = 0x5C ∧ (busWrite 0x4014 0x02 base).halted = true ∧
    (busWrite 0x4014 0x02 base).ppu.dmaCounter = 1539 := by decide +kernel

/-- `DmaStallsTheCpu`: just after the CPU tick of the store. -/
theorem witness_DmaStallsTheCpu :
    let st := ((base.setHalted true).setTickCount 1).setPpu { base.ppu with dmaActive := true, dmaCounter := 1539 }
    st.halted = true ∧ st.ppu.dmaActive = true ∧ st.ppu.dmaCounter = 1539 ∧ st.hostCalls = [] ∧
    st.tickCount % 3 = (st.launch.clockPhase.val + 1) % 3 := by decide

theorem witness_PpuStatusRead :
    ∀ a ∈ ([0x2002, 0x3FFA] : List Addr), 0x2000 ≤ a.toNat ∧ a.toNat < 0x4000 ∧ a.toNat % 8 = 2 := by simp

theorem witness_ScrollAndAddressLatch : (∃ p : Ppu, p.w = false) ∧ ∃ p : Ppu, p.w = true :=
  ⟨⟨{}, rfl⟩, ⟨{ w := true }, rfl⟩⟩

theorem witness_PpuDataAccess :
    (∃ (p : Ppu) (n : Nat), n = (if p.ctrl.getLsbD 2 then 32 else 1) ∧ n = 1) ∧
    ∃ (p : Ppu) (n : Nat), n = (if p.ctrl.getLsbD 2 then 32 else 1) ∧ n = 32 :=
  ⟨⟨{}, 1, by decide, rfl⟩, ⟨{ ctrl := 0x04 }, 32, by decide, rfl⟩⟩

/-- `PaletteAliases`: the two ends of an alias pair, the repeat after 32 bytes, and two entries that differ. -/
theorem witness_PaletteAliases :
    (0x3F00 ≤ (0x3F10 : BitVec 14).toNat ∧ 0x3F00 ≤ (0x3F00 : BitVec 14).toNat ∧
      (0x3F00 : BitVec 14).toNat % 32 % 16 = (0x3F10 : BitVec 14).toNat % 32 % 16 ∧ (0x3F10 : BitVec 14).toNat % 4 = 0) ∧
    (0x3F00 ≤ (0x3FFF : BitVec 14).toNat ∧ (0x3FFF : BitVec 14).toNat % 32 = (0x3F1F : BitVec 14).toNat % 32) ∧
    ¬ ((0x3F11 : BitVec 14).toNat % 32 % 16 = (0x3F01 : BitVec 14).toNat % 32 % 16 ∧ (0x3F01 : BitVec 14).toNat % 4 = 0 ∨
      (0x3F11 : BitVec 14).toNat % 32 = (0x3F01 : BitVec 14).toNat % 32) := by simp

theorem witness_FrameLength :
    (∃ p : Ppu, p.dot = 0 ∧ p.scanline = 0 ∧ p.oddFrame = false) ∧ ∃ p : Ppu, p.dot = 0 ∧ p.scanline = 0 ∧ p.oddFrame = true :=
  ⟨⟨{}, rfl, rfl, rfl⟩, ⟨{ oddFrame := true }, rfl, rfl, rfl⟩⟩

theorem witness_VBlankAndNmi :
    (∃ st : State, st.ppu.scanline = 241 ∧ st.ppu.dot = 1) ∧ ∃ st : State, st.ppu.scanline = 261 ∧ st.ppu.dot = 1 :=
  ⟨⟨base.setPpu { base.ppu with scanline := 241, dot := 1 }, rfl, rfl⟩,
    ⟨base.setPpu { base.ppu with scanline := 261, dot := 1 }, rfl, rfl⟩⟩

end Sys2Proof.Tests
end

section
/-! PROOFS. What a tick keeps, whatever it does: a good state stays good (R18, R260, R300, R370), and the launch
parameters and the host calls to come are as before (R7, R30, R434). One relation says the three together, so that
one case split over the instructions serves both `StepKeepsOk` and `LaunchParametersAreFixed`. -/

namespace Sys2Proof.Machine

/-- `t` is good if `st` is, and has the launch parameters and the host calls of `st`. -/
structure Sustains (st t : State) : Prop where
  ok : st.Ok → t.Ok
  launch : t.launch = st.launch
  hostCalls : t.hostCalls = st.hostCalls

theorem Sustains.refl (st : State) : Sustains st st := ⟨id, rfl, rfl⟩

theorem Sustains.trans {st t u : State} (e : Sustains st t) (e' : Sustains t u) : Sustains st u :=
  ⟨e'.ok ∘ e.ok, e'.launch.trans e.launch, e'.hostCalls.trans e.hostCalls⟩

/-! ## The updates and the shared operations -/

/-- R217, R255: what a signal changes is a latch or a device. -/
@[simp] theorem broadcast_launch (sig : Signal) (st : State) : (broadcast sig st).launch = st.launch := by
  cases sig with
  | ppuDma => exact broadcast_dma_launch st
  | cpuNmi | cpuIrq | cpuHlt | cpuRsm | apuFrc => rfl

@[simp] theorem broadcast_hostCalls (sig : Signal) (st : State) : (broadcast sig st).hostCalls = st.hostCalls := by
  cases sig with
  | ppuDma => exact broadcast_dma_hostCalls st
  | cpuNmi | cpuIrq | cpuHlt | cpuRsm | apuFrc => rfl

section
variable {st t : State} (e : Sustains st t)
include e

theorem Sustains.setA (v : Byte) : Sustains st (t.setA v) := e.trans ⟨(·.setA v), rfl, rfl⟩
theorem Sustains.setX (v : Byte) : Sustains st (t.setX v) := e.trans ⟨(·.setX v), rfl, rfl⟩
theorem Sustains.setY (v : Byte) : Sustains st (t.setY v) := e.trans ⟨(·.setY v), rfl, rfl⟩
theorem Sustains.setS (v : Byte) : Sustains st (t.setS v) := e.trans ⟨(·.setS v), rfl, rfl⟩
theorem Sustains.setPc (v : Addr) : Sustains st (t.setPc v) := e.trans ⟨(·.setPc v), rfl, rfl⟩
theorem Sustains.setP {p : Byte} (hp : flagOf p .u = true) : Sustains st (t.setP p) :=
  e.trans ⟨(·.setP hp), rfl, rfl⟩
theorem Sustains.setFlag {f : Flag} (hf : f ≠ .u) (b : Bool) : Sustains st (t.setFlag f b) :=
  e.trans ⟨(·.setFlag hf b), rfl, rfl⟩
theorem Sustains.setZN (v : Byte) : Sustains st (t.setZN v) := e.trans ⟨(·.setZN v), rfl, rfl⟩
theorem Sustains.setNmiPending (v : Bool) : Sustains st (t.setNmiPending v) :=
  e.trans ⟨(·.setNmiPending v), rfl, rfl⟩
theorem Sustains.setIrqPending (v : Bool) : Sustains st (t.setIrqPending v) :=
  e.trans ⟨(·.setIrqPending v), rfl, rfl⟩
theorem Sustains.setDidNmi (v : Bool) : Sustains st (t.setDidNmi v) := e.trans ⟨(·.setDidNmi v), rfl, rfl⟩
theorem Sustains.setDidIrq (v : Bool) : Sustains st (t.setDidIrq v) := e.trans ⟨(·.setDidIrq v), rfl, rfl⟩
theorem Sustains.setBudget (v : Nat) : Sustains st (t.setBudget v) := e.trans ⟨(·.setBudget v), rfl, rfl⟩
theorem Sustains.setCycleCount (v : BitVec 64) : Sustains st (t.setCycleCount v) :=
  e.trans ⟨(·.setCycleCount v), rfl, rfl⟩
theorem Sustains.setTickCount (v : Nat) : Sustains st (t.setTickCount v) := e.trans ⟨(·.setTickCount v), rfl, rfl⟩

theorem Sustains.addToA (m : Byte) : Sustains st (t.addToA m) :=
  (((e.setFlag (by decide) _).setFlag (by decide) _).setA _).setZN _
theorem Sustains.compareWith (reg m : Byte) : Sustains st (t.compareWith reg m) :=
  ((e.setFlag (by decide) _).setFlag (by decide) _).setFlag (by decide) _
theorem Sustains.testBits (m : Byte) : Sustains st (t.testBits m) :=
  ((e.setFlag (by decide) _).setFlag (by decide) _).setFlag (by decide) _
theorem Sustains.setShiftFlags (out : Bool) (r : Byte) : Sustains st (t.setShiftFlags out r) :=
  (e.setFlag (by decide) _).setZN _

theorem Sustains.busRead (addr : Addr) : Sustains st (Machine.busRead addr t).2 :=
  e.trans ⟨(·.busRead addr), by simp, by simp⟩
theorem Sustains.busWrite (addr : Addr) (b : Byte) : Sustains st (Machine.busWrite addr b t) :=
  e.trans ⟨(·.busWrite addr b), by simp, by simp⟩
theorem Sustains.push (v : Byte) : Sustains st (Machine.push v t) := (e.busWrite _ v).setS _
theorem Sustains.push16 (w : Addr) : Sustains st (Machine.push16 w t) := (e.push _).push _
theorem Sustains.pull : Sustains st (Machine.pull t).2 := (e.setS _).busRead _
theorem Sustains.pull16 : Sustains st (Machine.pull16 t).2 := e.pull.pull
theorem Sustains.readIndirect (ptr : Addr) : Sustains st (Machine.readIndirect ptr t).2 := (e.busRead _).busRead _
theorem Sustains.fetchOperand (src : Source) : Sustains st (Machine.fetchOperand src t).state :=
  e.trans ⟨(·.fetchOperand src), by simp, by simp⟩
theorem Sustains.trapEntry (b : Bool) (vector : Addr) : Sustains st (Machine.trapEntry b vector t) :=
  e.trans ⟨(·.trapEntry b vector), by simp [Machine.trapEntry, Machine.push16, Machine.push, Machine.read16],
    by simp [Machine.trapEntry, Machine.push16, Machine.push, Machine.read16]⟩
theorem Sustains.returnFromTrap : Sustains st (Machine.returnFromTrap t) :=
  ((e.pull.setP (by simp)).pull16).setPc _
theorem Sustains.fetchByte : Sustains st (Machine.fetchByte t).2 := (e.busRead _).setPc _

end

/-- R72: the fetch. -/
theorem Sustains.fetchInstr {st t : State} (e : Sustains st t) : Sustains st (Machine.fetchInstr t).2 := by
  unfold Machine.fetchInstr
  simp only
  split
  · exact e.fetchByte
  · exact e.fetchByte.fetchByte
  · exact e.fetchByte.setPc _
  · exact e.fetchByte.fetchByte.fetchByte

/-! ## The outcomes (R210, R435) -/

/-- The outcome `o`, of something that began in `st`, is a next state that sustains `st`. -/
def Answers (st : State) (o : Host.Outcome State Fault Refusal) : Prop := ∃ t, o = .next t ∧ Sustains st t

theorem Sustains.finish {st t : State} (e : Sustains st t) (st' : State) (op : Byte) (extra : Nat) :
    Answers st (Machine.finish st' op extra t) := ⟨_, rfl, e.setBudget _⟩

/-- An outcome reached from `t` is one reached from a state that `t` sustains. -/
theorem Answers.of_sustains {st t : State} {o : Host.Outcome State Fault Refusal} (h : Answers t o)
    (e : Sustains st t) : Answers st o := by
  obtain ⟨u, ho, hu⟩ := h
  exact ⟨u, ho, e.trans hu⟩

theorem Answers.mapNext {st : State} {o : Host.Outcome State Fault Refusal} {f : State → State}
    (h : Answers st o) (hf : ∀ {t}, Sustains st t → Sustains st (f t)) : Answers st (Machine.mapNext f o) := by
  obtain ⟨t, rfl, e⟩ := h
  exact ⟨f t, rfl, hf e⟩

section
variable (st : State) (op : Byte)

theorem readInstr_answers (src : Source) {effect : Byte → State → State}
    (he : ∀ m {t}, Sustains st t → Sustains st (effect m t)) : Answers st (readInstr op src effect st) :=
  (he _ ((Sustains.refl st).fetchOperand src)).finish st op _

theorem storeInstr_answers (m : MemOperand) (v : Byte) : Answers st (storeInstr op m v st) :=
  ⟨_, storeInstr_next op m v st, ((Sustains.refl st).busWrite _ v).setBudget _⟩

theorem modifyInstr_answers (m : MemOperand) (result : Byte → Byte) {flags : Byte → State → State}
    (hf : ∀ b {t}, Sustains st t → Sustains st (flags b t)) : Answers st (modifyInstr op m result flags st) :=
  ⟨_, modifyInstr_next op m result flags st, (hf _ (((Sustains.refl st).busRead _).busWrite _ _)).setBudget _⟩

theorem impliedInstr_answers {effect : State → State} (he : ∀ {t}, Sustains st t → Sustains st (effect t)) :
    Answers st (impliedInstr op effect st) := (he (.refl st)).finish st op 0

theorem branchInstr_answers (taken : Bool) (t : Byte) : Answers st (branchInstr op taken t st) := by
  cases taken with
  | true => exact ((Sustains.refl st).setPc _).finish st op _
  | false => exact (Sustains.refl st).finish st op 0

theorem shiftInstr_answers (operand : Option MemOperand) (result : Byte → Byte) (out : Byte → Bool) :
    Answers st (shiftInstr op operand result out st) := by
  cases operand with
  | none => exact impliedInstr_answers st op fun e => (e.setA _).setShiftFlags _ _
  | some m => exact modifyInstr_answers st op m result fun _ _ e => e.setShiftFlags _ _

end

/-- R199: an XXX reads its pointer at most. -/
theorem execXxx_answers (op : Byte) (f : XxxForm) (st : State) : Answers st (execXxx op f st) := by
  have e := Sustains.refl st
  cases f with
  | imp | acc | imm | rel => exact e.finish st op 0
  | ind w => exact (e.readIndirect w).finish st op 0
  | mem m => exact Sustains.finish (by rw [resolve_state]; exact e) st op 0

/-- R210: every instruction answers a next state, by its shape and what its effect writes. -/
theorem exec_answers (i : Instr) (st : State) : Answers st (exec i st) := by
  have e := Sustains.refl st
  cases i with
  | lda | and | eor | ora =>
    simp only [exec_lda, exec_and, exec_eor, exec_ora]
    exact readInstr_answers st _ _ fun _ _ e => (e.setA _).setZN _
  | ldx => rw [exec_ldx]; exact readInstr_answers st _ _ fun _ _ e => (e.setX _).setZN _
  | ldy => rw [exec_ldy]; exact readInstr_answers st _ _ fun _ _ e => (e.setY _).setZN _
  | bit => rw [exec_bit]; exact readInstr_answers st _ _ fun m _ e => e.testBits m
  | adc | sbc =>
    simp only [exec_adc, exec_sbc]
    exact readInstr_answers st _ _ fun _ _ e => e.addToA _
  | cmp | cpx | cpy =>
    simp only [exec_cmp, exec_cpx, exec_cpy]
    exact readInstr_answers st _ _ fun m _ e => e.compareWith _ m
  | sta | stx | sty =>
    simp only [exec_sta, exec_stx, exec_sty]
    exact storeInstr_answers st _ _ _
  | inc | dec =>
    simp only [exec_inc, exec_dec]
    exact modifyInstr_answers st _ _ _ fun _ _ e => e.setZN _
  | asl | lsr | rol | ror =>
    simp only [exec_asl, exec_lsr, exec_rol, exec_ror]
    exact shiftInstr_answers st _ _ _ _
  | txa | tya =>
    simp only [exec_txa, exec_tya]
    exact impliedInstr_answers st _ fun e => (e.setA _).setZN _
  | tax | tsx | inx | dex =>
    simp only [exec_tax, exec_tsx, exec_inx, exec_dex]
    exact impliedInstr_answers st _ fun e => (e.setX _).setZN _
  | tay | iny | dey =>
    simp only [exec_tay, exec_iny, exec_dey]
    exact impliedInstr_answers st _ fun e => (e.setY _).setZN _
  | txs => rw [exec_txs]; exact impliedInstr_answers st _ fun e => e.setS _
  | pha | php =>
    simp only [exec_pha, exec_php]
    exact impliedInstr_answers st _ fun e => e.push _
  | pla => rw [exec_pla]; exact impliedInstr_answers st _ fun e => (e.pull.setA _).setZN _
  | plp => rw [exec_plp]; exact impliedInstr_answers st _ fun e => e.pull.setP (by simp)
  | clc | cld | cli | clv | sec | sed | sei =>
    simp only [exec_clc, exec_cld, exec_cli, exec_clv, exec_sec, exec_sed, exec_sei]
    exact impliedInstr_answers st _ fun e => e.setFlag (by decide) _
  | nop => rw [exec_nop]; exact impliedInstr_answers st _ id
  | jmp f =>
    cases f with
    | abs w => rw [exec_jmp_abs]; exact (e.setPc w).finish st _ 0
    | ind w => rw [exec_jmp_ind]; exact ((e.readIndirect w).setPc _).finish st _ 0
  | jsr w => rw [exec_jsr]; exact ((e.push16 _).setPc w).finish st _ 0
  | rts => rw [exec_rts]; exact impliedInstr_answers st _ fun e => e.pull16.setPc _
  | brk => rw [exec_brk]; exact impliedInstr_answers st _ fun e => (e.setPc _).trapEntry true _
  | rti => rw [exec_rti]; exact impliedInstr_answers st _ fun e => e.returnFromTrap
  | bcc | bcs | beq | bmi | bne | bpl | bvc | bvs =>
    simp only [exec_bcc, exec_bcs, exec_beq, exec_bmi, exec_bne, exec_bpl, exec_bvc, exec_bvs]
    exact branchInstr_answers st _ _ _
  | xxx op f => exact execXxx_answers op f st

/-! ## The master tick (R211, R430) -/

theorem Sustains.serviceNmi {st t : State} (e : Sustains st t) : Sustains st (Machine.serviceNmi t) :=
  (((e.setNmiPending false).trapEntry false _).setDidNmi true).setBudget _

theorem Sustains.serviceIrq {st t : State} (e : Sustains st t) : Sustains st (Machine.serviceIrq t) :=
  (((e.setIrqPending false).trapEntry false _).setDidIrq true).setBudget _

/-- R211: an NMI service, an IRQ service or one instruction. -/
theorem boundaryAction_answers (st : State) : Answers st (boundaryAction st) := by
  have e := ((Sustains.refl st).setDidNmi false).setDidIrq false
  unfold boundaryAction
  simp only
  split
  · exact ⟨_, rfl, e.serviceNmi⟩
  · split
    · exact ⟨_, rfl, e.serviceIrq⟩
    · exact (exec_answers _ _).of_sustains e.fetchInstr

theorem Sustains.retireCycle {st t : State} (e : Sustains st t) : Sustains st (Machine.retireCycle t) :=
  (e.setCycleCount _).setBudget _

theorem cpuCycle_answers (st : State) : Answers st (cpuCycle st) := by
  unfold cpuCycle
  split
  · exact ⟨st, rfl, .refl st⟩
  · split
    · exact (boundaryAction_answers st).mapNext Sustains.retireCycle
    · exact ⟨_, rfl, (Sustains.refl st).retireCycle⟩

theorem Sustains.ppuTick {st t : State} (e : Sustains st t) : Sustains st (Machine.ppuTick t) :=
  e.trans ⟨State.Ok.ppuTick, by unfold Machine.ppuTick; simp only; split_ifs <;> simp,
    by unfold Machine.ppuTick; simp only; split_ifs <;> simp⟩

theorem Sustains.apuTick {st t : State} (e : Sustains st t) : Sustains st (Machine.apuTick t) :=
  e.trans ⟨State.Ok.apuTick, by unfold Machine.apuTick; simp only; split_ifs <;> simp,
    by unfold Machine.apuTick; simp only; split_ifs <;> simp⟩

theorem tick_answers (st : State) : Answers st (tick st) := by
  have e := (Sustains.refl st).ppuTick
  unfold tick
  simp only
  split
  · exact ((cpuCycle_answers _).mapNext fun h => h.apuTick.setTickCount _).of_sustains e
  · exact ⟨_, rfl, e.setTickCount _⟩

/-! ## The host calls (R420, R434) -/

/-- R421: the vector lies in the cartridge, whose reads change nothing. -/
theorem resetPc_state (pc : Option Addr) (st : State) : (resetPc pc st).2 = st := by
  cases pc with
  | none => exact congrArg Prod.snd (read16_high (by decide) (by decide))
  | some w => rfl

theorem Sustains.consoleReset {st t : State} (e : Sustains st t) (pc : Option Addr) :
    Sustains st (Machine.consoleReset pc t) := by
  unfold Machine.consoleReset
  simp only [resetPc_state]
  exact e.trans ⟨fun h => { h with
    unused := show flagOf 0x24 .u = true by decide, ppu := h.ppu.reset, apu := Apu.ok_reset }, rfl, rfl⟩

/-- R407: removing samples leaves no more of them. -/
theorem Apu.Ok.dropSamples {u : Apu} (h : u.Ok) (n : Nat) : (u.dropSamples n).Ok := by
  unfold Apu.dropSamples
  split
  · exact { h with samples_le := by have := h.samples_le; simp only [List.length_drop]; omega }
  · exact h

theorem Sustains.hostCall {st t : State} (e : Sustains st t) (call : HostCall) :
    Sustains st (Machine.hostCall call t) := by
  cases call with
  | input player button pressed => exact e.trans ⟨(·.setPads _), rfl, rfl⟩
  | reset => exact e.consoleReset none
  | resetTo pc => exact e.consoleReset (some pc)
  | fillAudio n => exact e.trans ⟨fun h => h.setApu (h.apu.dropSamples n), rfl, rfl⟩

theorem Sustains.foldl_hostCall {st t : State} (e : Sustains st t) (calls : List HostCall) :
    Sustains st (calls.foldl (fun st call => Machine.hostCall call st) t) := by
  induction calls generalizing t with
  | nil => exact e
  | cons call rest ih => exact ih (e.hostCall call)

/-- R434: the calls due now are taken off the list and made. -/
theorem sustains_hostPhase (st : State) : Sustains (st.setHostCalls st.hostCalls.tail) (hostPhase st) := by
  unfold hostPhase
  cases hc : st.hostCalls with
  | nil => exact ⟨fun h => h.setHostCalls st.hostCalls, rfl, hc⟩
  | cons calls rest => exact (Sustains.refl _).foldl_hostCall calls

/-- R430, R435: a step answers a next state that sustains the state with one entry of the host calls used up. -/
theorem step_answers (st : State) : Answers (st.setHostCalls st.hostCalls.tail) (step st) :=
  (tick_answers _).of_sustains (sustains_hostPhase st)

theorem sustains_of_step {st t : State} (h : step st = .next t) : Sustains (st.setHostCalls st.hostCalls.tail) t := by
  obtain ⟨u, hu, e⟩ := step_answers st
  cases hu.symm.trans h
  exact e

/-! ## The obligations -/

/-- Settles O8: a step sustains the state with one entry of its host calls used up, which is good if the state is. -/
theorem stepKeepsOk : Obligations.StepKeepsOk := by
  intro st t h hstep
  exact (sustains_of_step hstep).ok (h.setHostCalls _)

/-- Settles O10: the launch parameters and the host calls of that same state. -/
theorem launchParametersAreFixed : Obligations.LaunchParametersAreFixed := by
  intro st t hstep
  have e := sustains_of_step hstep
  exact ⟨e.launch, e.hostCalls⟩

end Sys2Proof.Machine
end

section
/-! PROOFS. Other values in the interrupt latches and the cycle count pass through every instruction untouched (R26,
R28). One update writes the three together; each operation of the machine commutes with it, so that one case split over
the instructions serves `InstructionsIgnoreTheLatches`. -/

namespace Sys2Proof.Machine

/-- R26, R28: values for the interrupt latches and the cycle count. -/
structure Latches where
  nmi : Bool
  irq : Bool
  cycles : BitVec 64

/-- `st` with the latches and the cycle count of `l`. -/
def State.withLatches (st : State) (l : Latches) : State :=
  ((st.setNmiPending l.nmi).setIrqPending l.irq).setCycleCount l.cycles

section
variable (st : State) (l : Latches)

/-! ## The fields and the updates -/

@[simp] theorem State.withLatches_a : (st.withLatches l).a = st.a := rfl
@[simp] theorem State.withLatches_x : (st.withLatches l).x = st.x := rfl
@[simp] theorem State.withLatches_y : (st.withLatches l).y = st.y := rfl
@[simp] theorem State.withLatches_s : (st.withLatches l).s = st.s := rfl
@[simp] theorem State.withLatches_p : (st.withLatches l).p = st.p := rfl
@[simp] theorem State.withLatches_pc : (st.withLatches l).pc = st.pc := rfl
@[simp] theorem State.withLatches_ram : (st.withLatches l).ram = st.ram := rfl
@[simp] theorem State.withLatches_prgRam : (st.withLatches l).prgRam = st.prgRam := rfl
@[simp] theorem State.withLatches_ppu : (st.withLatches l).ppu = st.ppu := rfl
@[simp] theorem State.withLatches_apu : (st.withLatches l).apu = st.apu := rfl
@[simp] theorem State.withLatches_pads : (st.withLatches l).pads = st.pads := rfl
@[simp] theorem State.withLatches_launch : (st.withLatches l).launch = st.launch := rfl

@[simp] theorem State.withLatches_setA (v : Byte) : (st.withLatches l).setA v = (st.setA v).withLatches l := rfl
@[simp] theorem State.withLatches_setS (v : Byte) : (st.withLatches l).setS v = (st.setS v).withLatches l := rfl
@[simp] theorem State.withLatches_setP (v : Byte) : (st.withLatches l).setP v = (st.setP v).withLatches l := rfl
@[simp] theorem State.withLatches_setPc (v : Addr) : (st.withLatches l).setPc v = (st.setPc v).withLatches l := rfl
@[simp] theorem State.withLatches_setHalted (v : Bool) :
    (st.withLatches l).setHalted v = (st.setHalted v).withLatches l := rfl
@[simp] theorem State.withLatches_setRam (v : Memory) :
    (st.withLatches l).setRam v = (st.setRam v).withLatches l := rfl
@[simp] theorem State.withLatches_setPrgRam (v : Memory) :
    (st.withLatches l).setPrgRam v = (st.setPrgRam v).withLatches l := rfl
@[simp] theorem State.withLatches_setPpu (v : Ppu) : (st.withLatches l).setPpu v = (st.setPpu v).withLatches l := rfl
@[simp] theorem State.withLatches_setApu (v : Apu) : (st.withLatches l).setApu v = (st.setApu v).withLatches l := rfl
@[simp] theorem State.withLatches_setPads (v : Pads) :
    (st.withLatches l).setPads v = (st.setPads v).withLatches l := rfl
@[simp] theorem State.withLatches_setZN (v : Byte) : (st.withLatches l).setZN v = (st.setZN v).withLatches l := rfl

/-! ## The shared operations -/

@[simp] theorem busRead_withLatches (addr : Addr) :
    busRead addr (st.withLatches l) = ((busRead addr st).1, (busRead addr st).2.withLatches l) := by
  unfold busRead
  rw [State.withLatches_launch]
  split <;> simp

@[simp] theorem dmaCopy_withLatches (page : Byte) (fuel i : Nat) :
    dmaCopy page fuel i (st.withLatches l) = (dmaCopy page fuel i st).withLatches l := by
  induction fuel generalizing i st with
  | zero => rfl
  | succ n ih => simp [dmaCopy, ih]

/-- R350: of the signals a bus access broadcasts, the one that reads and writes memory. -/
@[simp] theorem broadcast_dma_withLatches :
    broadcast .ppuDma (st.withLatches l) = (broadcast .ppuDma st).withLatches l := by
  simp [broadcast, ppuOnDma, State.cpuOnSignal]

@[simp] theorem apuWrite_withLatches (r : Nat) (b : Byte) :
    apuWrite r b (st.withLatches l) = (apuWrite r b st).withLatches l := by
  by_cases hr : r = 0x14 <;> simp [apuWrite, hr]

@[simp] theorem busWrite_withLatches (addr : Addr) (b : Byte) :
    busWrite addr b (st.withLatches l) = (busWrite addr b st).withLatches l := by
  unfold busWrite
  rw [State.withLatches_launch]
  split <;> simp [broadcast_frc]

@[simp] theorem push_withLatches (v : Byte) : push v (st.withLatches l) = (push v st).withLatches l := by
  simp [push]

@[simp] theorem push16_withLatches (w : Addr) : push16 w (st.withLatches l) = (push16 w st).withLatches l := by
  simp [push16]

@[simp] theorem pull_withLatches : pull (st.withLatches l) = ((pull st).1, (pull st).2.withLatches l) := by
  simp [pull]

@[simp] theorem pull16_withLatches : pull16 (st.withLatches l) = ((pull16 st).1, (pull16 st).2.withLatches l) := by
  simp [pull16]

@[simp] theorem readIndirect_withLatches (ptr : Addr) :
    readIndirect ptr (st.withLatches l) = ((readIndirect ptr st).1, (readIndirect ptr st).2.withLatches l) := by
  simp [readIndirect]

@[simp] theorem trapEntry_withLatches (b : Bool) (vector : Addr) :
    trapEntry b vector (st.withLatches l) = (trapEntry b vector st).withLatches l := by
  simp [trapEntry, read16]

@[simp] theorem returnFromTrap_withLatches :
    returnFromTrap (st.withLatches l) = (returnFromTrap st).withLatches l := by
  simp [returnFromTrap]

/-- R73: the mode's registers and pointer are none of the latches. -/
@[simp] theorem resolve_withLatches (m : MemOperand) :
    resolve m (st.withLatches l) = { resolve m st with state := st.withLatches l } := by
  cases m <;> simp [resolve, indexed, readZeroPage16_eq]

@[simp] theorem fetchOperand_withLatches (src : Source) :
    fetchOperand src (st.withLatches l) =
      { fetchOperand src st with state := (fetchOperand src st).state.withLatches l } := by
  cases src with
  | imm n => rfl
  | mem m => simp [fetchOperand]

/-! ## The instruction shapes -/

/-- R72: the budget comes from the launch parameters. -/
theorem finish_withLatches (op : Byte) (extra : Nat) (t : State) :
    finish (st.withLatches l) op extra (t.withLatches l) = mapNext (·.withLatches l) (finish st op extra t) := rfl

variable (op : Byte)

theorem readInstr_withLatches (src : Source) {effect : Byte → State → State}
    (he : ∀ m t, effect m (t.withLatches l) = (effect m t).withLatches l) :
    readInstr op src effect (st.withLatches l) = mapNext (·.withLatches l) (readInstr op src effect st) := by
  simp [readInstr, he, finish_withLatches]

theorem storeInstr_withLatches (m : MemOperand) (v : Byte) :
    storeInstr op m v (st.withLatches l) = mapNext (·.withLatches l) (storeInstr op m v st) := by
  simp [storeInstr, finish_withLatches]

theorem modifyInstr_withLatches (m : MemOperand) (result : Byte → Byte) {flags : Byte → State → State}
    (hf : ∀ b t, flags b (t.withLatches l) = (flags b t).withLatches l) :
    modifyInstr op m result flags (st.withLatches l) = mapNext (·.withLatches l) (modifyInstr op m result flags st) := by
  simp [modifyInstr, hf, finish_withLatches]

theorem impliedInstr_withLatches {effect : State → State}
    (he : effect (st.withLatches l) = (effect st).withLatches l) :
    impliedInstr op effect (st.withLatches l) = mapNext (·.withLatches l) (impliedInstr op effect st) := by
  simp [impliedInstr, he, finish_withLatches]

theorem branchInstr_withLatches (taken : Bool) (t : Byte) :
    branchInstr op taken t (st.withLatches l) = mapNext (·.withLatches l) (branchInstr op taken t st) := by
  cases taken <;> rfl

theorem shiftInstr_withLatches (operand : Option MemOperand) (result : Byte → Byte) (out : Byte → Bool) :
    shiftInstr op operand result out (st.withLatches l) =
      mapNext (·.withLatches l) (shiftInstr op operand result out st) := by
  cases operand with
  | none => rfl
  | some m =>
    simp only [shiftInstr_mem]
    exact modifyInstr_withLatches st l op m result fun _ _ => rfl

/-- R199: an XXX reads its pointer at most. -/
theorem execXxx_withLatches (f : XxxForm) :
    execXxx op f (st.withLatches l) = mapNext (·.withLatches l) (execXxx op f st) := by
  cases f with
  | imp | acc | imm | rel => rfl
  | ind | mem => simp [execXxx, finish_withLatches]

/-- R26, R28: an instruction commutes with a change of the latches and the cycle count, by its shape. -/
theorem exec_withLatches (i : Instr) :
    exec i (st.withLatches l) = mapNext (·.withLatches l) (exec i st) := by
  cases i with
  | lda | ldx | ldy | and | eor | ora | bit | adc | sbc | cmp | cpx | cpy =>
    simp only [exec_lda, exec_ldx, exec_ldy, exec_and, exec_eor, exec_ora, exec_bit, exec_adc, exec_sbc, exec_cmp,
      exec_cpx, exec_cpy]
    exact readInstr_withLatches st l _ _ fun _ _ => rfl
  | sta | stx | sty =>
    simp only [exec_sta, exec_stx, exec_sty]
    exact storeInstr_withLatches st l _ _ _
  | inc | dec =>
    simp only [exec_inc, exec_dec]
    exact modifyInstr_withLatches st l _ _ _ fun _ _ => rfl
  | asl | lsr | rol | ror =>
    simp only [exec_asl, exec_lsr, exec_rol, exec_ror]
    exact shiftInstr_withLatches st l _ _ _ _
  | tax | tay | txa | tya | tsx | txs | inx | iny | dex | dey | clc | cld | cli | clv | sec | sed | sei | nop =>
    simp only [exec_tax, exec_tay, exec_txa, exec_tya, exec_tsx, exec_txs, exec_inx, exec_iny, exec_dex, exec_dey,
      exec_clc, exec_cld, exec_cli, exec_clv, exec_sec, exec_sed, exec_sei, exec_nop]
    exact impliedInstr_withLatches st l _ rfl
  | pha | php | pla | plp | rts | brk | rti =>
    simp only [exec_pha, exec_php, exec_pla, exec_plp, exec_rts, exec_brk, exec_rti]
    exact impliedInstr_withLatches st l _ (by simp)
  | jmp f =>
    cases f with
    | abs w => rfl
    | ind w => simp [exec_jmp_ind, finish_withLatches]
  | jsr w => simp [exec_jsr, finish_withLatches]
  | bcc | bcs | beq | bmi | bne | bpl | bvc | bvs =>
    simp only [exec_bcc, exec_bcs, exec_beq, exec_bmi, exec_bne, exec_bpl, exec_bvc, exec_bvs]
    exact branchInstr_withLatches st l _ _ _
  | xxx op f => exact execXxx_withLatches st l op f

end

/-- Settles O11: the three updates of the statement are one change of latches, with which `exec` commutes. -/
theorem instructionsIgnoreTheLatches : Obligations.InstructionsIgnoreTheLatches := by
  intro i st n q c
  exact exec_withLatches st ⟨n, q, c⟩ i

end Sys2Proof.Machine
end

section
/-! PROOFS. The stack instructions. PHA and PHP are one lemma about an implied instruction that pushes; PLA and PLP take
the byte `pull` gives and write what the frame rules below allow (R15, R16, R120 to R123). -/

namespace Sys2Proof.Machine

/-! ## Frames: an update of a part the frame leaves open -/

theorem Keeps.refl (written : List Part) (flags : List Flag) (st : State) : Keeps written flags st st := by
  constructor <;> intros <;> rfl

section
variable {written : List Part} {flags : List Flag} {st t : State} (k : Keeps written flags st t)
include k

theorem Keeps.setA (h : .a ∈ written) (v : Byte) : Keeps written flags st (t.setA v) := { k with a := absurd h }
theorem Keeps.setS (h : .s ∈ written) (v : Byte) : Keeps written flags st (t.setS v) := { k with s := absurd h }
theorem Keeps.setRam (m : Memory) : Keeps written flags st (t.setRam m) := { k with }
theorem Keeps.setBudget (n : Nat) : Keeps written flags st (t.setBudget n) := { k with }

theorem Keeps.setP {p : Byte} (h : ∀ f, f ∉ flags → flagOf p f = st.flag f) : Keeps written flags st (t.setP p) :=
  { k with flag := h }

theorem Keeps.setZN (hz : .z ∈ flags) (hn : .n ∈ flags) (v : Byte) : Keeps written flags st (t.setZN v) :=
  { k with
    flag := fun f hf => by
      have hfz : f ≠ .z := fun e => hf (e ▸ hz)
      have hfn : f ≠ .n := fun e => hf (e ▸ hn)
      rw [State.flag_setZN, if_neg hfz, if_neg hfn, k.flag f hf] }

end

/-- R20: what `SetZN` leaves. -/
theorem showsZN_setZN (v : Byte) (st : State) : ShowsZN v (st.setZN v) := by
  constructor <;> simp

/-! ## Push and pull -/

/-- R15: one byte pushed is one byte stored. -/
theorem StoresBytes.one {a : Byte} {st t : State} (v : Byte) (hr : t.ram = st.ram.write (256 + a.toNat) v)
    (hp : t.prgRam = st.prgRam) (hl : t.launch = st.launch) : StoresBytes [(stackAddr a, v)] st t := by
  intro addr h
  have hw := busWrite_stores (stackAddr a) v st addr h
  rw [← hw]
  exact busPeek_congr (by simp [hr, busWrite_ram]) (by simp [hp, busWrite_prgRam]) (by simp [hl]) (by simpa using h)

/-- R120, R121: a one-byte instruction whose effect is a push. -/
theorem impliedInstr_push {op : Byte} {n : Nat} (hn : Launch.default.cycles op = n) (value : State → Byte)
    (st : State) :
    ∃ t, impliedInstr op (fun st => push (value st) st) st = .next t ∧ t.s = st.s - 1 ∧
      StoresBytes [(stackAddr st.s, value st)] st t ∧ Takes op n st t ∧ Keeps [.s] [] st t := by
  simp only [impliedInstr_next, push_eq]
  exact ⟨_, rfl, rfl, .one (value st) rfl rfl rfl, ⟨rfl, hn⟩,
    (((Keeps.refl _ _ st).setRam _).setS (by simp) _).setBudget _⟩

/-- R16: a pull gives the byte at the new stack address and changes S alone. -/
theorem pull_eq_busPeek (st : State) : pull st = (busPeek (stackAddr (st.s + 1)) st, st.setS (st.s + 1)) := by
  simp [pull_eq, busPeek]

/-- R122: PLA puts the byte pulled in A and sets Z and N from it. -/
theorem exec_pla_next (st : State) :
    exec .pla st = .next ((((st.setS (st.s + 1)).setA (busPeek (stackAddr (st.s + 1)) st)).setZN
      (busPeek (stackAddr (st.s + 1)) st)).setBudget (st.launch.cycles 0x68)) := by
  simp only [exec_pla, impliedInstr_next, pull_eq_busPeek]

/-- R123: PLP takes P from the byte pulled. -/
theorem exec_plp_next (st : State) :
    exec .plp st = .next (((st.setS (st.s + 1)).setP (pulledStatus st.p (busPeek (stackAddr (st.s + 1)) st))).setBudget
      (st.launch.cycles 0x28)) := by
  simp only [exec_plp, impliedInstr_next, pull_eq_busPeek]

/-! ## The obligations -/

/-- Settles O26: both are an implied instruction that pushes, of A and of P with bits 4 and 5 set. -/
theorem pushes : Obligations.Pushes :=
  ⟨impliedInstr_push rfl State.a, impliedInstr_push rfl fun st => pushedByPhp st.p, rfl, rfl⟩

/-- Settles O27: A with Z and N, or P but for B, takes the byte pulled; memory is not written. -/
theorem pulls : Obligations.Pulls := by
  refine ⟨fun st => ⟨_, exec_pla_next st, rfl, rfl, showsZN_setZN _ _, ⟨rfl, rfl⟩, ?frameA, .of_eq rfl rfl rfl⟩,
    fun st => ⟨_, exec_plp_next st, rfl, rfl, ?b, ?u, ⟨rfl, rfl⟩, ?frameP, .of_eq rfl rfl rfl⟩, rfl, rfl⟩
  case frameA =>
    exact ((((Keeps.refl _ _ st).setS (by simp) _).setA (by simp) _).setZN (by simp) (by simp) _).setBudget _
  case b => simp [State.flag]
  case u => simp
  case frameP =>
    have hp : ∀ f, f ∉ [Flag.c, .z, .i, .d, .v, .n, .u] →
        flagOf (pulledStatus st.p (busPeek (stackAddr (st.s + 1)) st)) f = st.flag f := by
      intro f hf
      have hb : f = .b := by cases f <;> simp_all
      subst hb
      simp [State.flag]
    exact (((Keeps.refl _ _ st).setS (by simp) _).setP hp).setBudget _

end Sys2Proof.Machine
end

section
/-! PROOFS. Reset: the state after it is good (R32, R310, R410), and what `reset()` and `reset(pc)` set and leave alone
(R421, R423, R424). -/

namespace Sys2Proof.Machine

/-- R310: a PPU just powered on, its memories listing nothing. -/
theorem Ppu.ok_powerOn : Ppu.Ok {} where
  dot_le := Nat.zero_le _
  scanline_le := Nat.zero_le _
  sprites_le := Nat.zero_le _
  status_low := rfl
  dma_le := Nat.zero_le _
  nt_sized := Memory.sized_nil _
  pal_sized := Memory.sized_nil _
  oam_sized := Memory.sized_nil _
  frame_sorted := .nil

/-- R421: the PC after reset is the argument, or the vector's word. -/
theorem resetPc_pc (pc : Option Addr) (st : State) :
    (resetPc pc st).1 = pc.getD (word (busPeek 0xFFFD st) (busPeek 0xFFFC st)) := by
  cases pc with
  | none => exact congrArg Prod.fst (read16_high (by decide) (by decide))
  | some w => rfl

/-! ## The obligations -/

/-- Settles O9: the memories list nothing, and the launch parameters, the PPU and the APU are good. -/
theorem resetIsOk : Obligations.ResetIsOk where
  unused := rfl
  ram_sized := Memory.sized_nil _
  prgRam_wf := Memory.wf_nil
  launch := Launch.ok_default
  ppu := Ppu.ok_powerOn
  apu := Apu.ok_reset

/-- Settles O51: finding the PC changes nothing, and the rest of `consoleReset` is one record update. -/
theorem resetProcedure : Obligations.ResetProcedure := by
  rintro pc st _ rfl
  simp [consoleReset, resetPc_state, resetPc_pc, Ppu.reset]

end Sys2Proof.Machine
end

section
/-! PROOFS. The bus, address by address: which addresses lead to the PPU, to a controller port and to nothing (R46), so
what a read changes (R50, R282, R303, R307), what an unowned address does (R49, R270), and which bytes of memory a write
changes (R260, R262). -/

namespace Sys2Proof.Machine

/-! ## Routes -/

/-- R270: no cartridge address is a PPU register. -/
theorem Cartridge.route_ne_ppu (c : Cartridge) (n r : Nat) : c.route n ≠ .ppu r := by
  rcases c.route_cases n with ⟨k, h⟩ | ⟨k, h⟩ | h <;> simp [h]

/-- R270: no cartridge address is a controller port. -/
theorem Cartridge.route_ne_pad (c : Cartridge) (n : Nat) (q : Player) : c.route n ≠ .pad q := by
  rcases c.route_cases n with ⟨k, h⟩ | ⟨k, h⟩ | h <;> simp [h]

/-- R270: an empty slot answers nowhere. -/
theorem Cartridge.route_of_not_inserted {c : Cartridge} (h : c.inserted = false) (n : Nat) : c.route n = .nothing := by
  simp [Cartridge.route, h]

/-- R46, R262: the PPU answers from `0x2000` to `0x3FFF`, and every eighth address is the same register. -/
theorem route_eq_ppu_iff (c : Cartridge) (addr : Addr) (r : Nat) :
    route c addr = .ppu r ↔ 0x2000 ≤ addr.toNat ∧ addr.toNat < 0x4000 ∧ addr.toNat % 8 = r := by
  simp only [route]
  split_ifs <;> simp [c.route_ne_ppu] <;> omega

/-- R280: each controller port is one address. -/
theorem route_eq_pad_iff (c : Cartridge) (addr : Addr) (q : Player) :
    route c addr = .pad q ↔ addr.toNat = 0x4016 ∧ q = .one ∨ addr.toNat = 0x4017 ∧ q = .two := by
  cases q with
  | one | two =>
    simp only [route]
    split_ifs <;> simp [c.route_ne_pad] <;> omega

/-- R46: no device owns `0x4018` to `0x401F`. -/
theorem route_unowned (c : Cartridge) {addr : Addr} (h1 : 0x4018 ≤ addr.toNat) (h2 : addr.toNat ≤ 0x401F) :
    route c addr = .nothing := by
  simp only [route]
  rw [if_neg (by omega), if_neg (by omega), if_neg (by omega), if_neg (by omega), if_neg (by omega), if_pos (by omega)]

/-! ## Reads and writes, by the route -/

section
variable {addr : Addr} {st : State}

theorem busRead_of_route_ppu {r : Nat} (h : route st.launch.cart addr = .ppu r) :
    busRead addr st = ((st.ppu.readReg st.launch.cart r).1, st.setPpu (st.ppu.readReg st.launch.cart r).2) := by
  simp [busRead, h]

theorem busRead_of_route_pad {q : Player} (h : route st.launch.cart addr = .pad q) :
    busRead addr st = ((st.pads.read q).1, st.setPads (st.pads.read q).2) := by
  simp [busRead, h]

/-- R49: a read of nothing gives 0 and changes nothing. -/
theorem busRead_of_route_nothing (h : route st.launch.cart addr = .nothing) : busRead addr st = (0, st) := by
  simp [busRead, h]

/-- R49: a write to nothing is dropped. -/
theorem busWrite_of_route_nothing (h : route st.launch.cart addr = .nothing) (b : Byte) : busWrite addr b st = st := by
  simp [busWrite, h]

end

/-- R300: of the PPU's registers, only PPUSTATUS and PPUDATA change when read. -/
theorem Ppu.readReg_state_of_ne (c : Cartridge) (p : Ppu) {r : Nat} (h2 : r ≠ 2) (h7 : r ≠ 7) :
    (p.readReg c r).2 = p := by
  unfold Ppu.readReg
  split
  · exact absurd rfl h2
  · rfl
  · exact absurd rfl h7
  · rfl

@[simp] theorem State.setPpu_self (st : State) : st.setPpu st.ppu = st := rfl

/-! ## The obligations -/

/-- Settles O12: by the device the address leads to, and for the PPU by the register read. -/
theorem readSideEffects : Obligations.ReadSideEffects := by
  intro addr st
  have hppu := route_eq_ppu_iff st.launch.cart addr
  have hpad := route_eq_pad_iff st.launch.cart addr
  refine ⟨fun h1 h2 h3 => ?status, fun h1 h2 h3 => ?data, fun h => ?padOne, fun h => ?padTwo, fun hp h1 h2 => ?other⟩
  case status => rw [busRead_of_route_ppu ((hppu 2).2 ⟨h1, h2, h3⟩)]; rfl
  case data => rw [busRead_of_route_ppu ((hppu 7).2 ⟨h1, h2, h3⟩)]; rfl
  case padOne => rw [busRead_of_route_pad ((hpad .one).2 (.inl ⟨h, rfl⟩))]; rfl
  case padTwo => rw [busRead_of_route_pad ((hpad .two).2 (.inr ⟨h, rfl⟩))]; rfl
  case other =>
    rcases busRead_cases addr st with h | ⟨r, hr, h⟩ | ⟨q, hq, -⟩
    · exact h
    · obtain ⟨ge, lt, rfl⟩ := (hppu r).1 hr
      obtain ⟨hne2, hne7⟩ : addr.toNat % 8 ≠ 2 ∧ addr.toNat % 8 ≠ 7 := by omega
      rw [h, Ppu.readReg_state_of_ne _ _ hne2 hne7, State.setPpu_self]
    · rcases (hpad q).1 hq with ⟨hone, -⟩ | ⟨htwo, -⟩
      · exact absurd hone h1
      · exact absurd htwo h2

/-- Settles O16: `busWrite_stores` gives the byte written exactly where the write lands on the byte read. -/
theorem memoryReadAfterWrite : Obligations.MemoryReadAfterWrite := by
  intro addr other b st hs
  have stores := busWrite_stores addr b st other hs
  constructor
  · intro hw he
    simpa [he, hw] using stores
  · rintro (hw | hne)
    · simpa [hw] using stores
    · simpa [Ne.symm hne] using stores

/-- Settles O15: both kinds of address lead to nothing. -/
theorem unownedAddresses : Obligations.UnownedAddresses := by
  intro addr b st h
  have hr : route st.launch.cart addr = .nothing := by
    rcases h with ⟨h1, h2⟩ | ⟨h1, hi⟩
    · exact route_unowned _ h1 h2
    · rw [route_high _ h1, Cartridge.route_of_not_inserted hi]
  exact ⟨busRead_of_route_nothing hr, busWrite_of_route_nothing hr b⟩

end Sys2Proof.Machine
end

section
/-! PROOFS. The round trip of the decoder (R70, R88 to R92). One relation says what a table entry makes of its operand
bytes; the decoder computes it, and both directions of the round trip are facts about the entry of an opcode byte. -/

namespace Sys2Proof

/-! ## Table entries -/

/-- R70: how many operand bytes an entry takes. -/
def Slot.operandCount : Slot → Nat
  | .one _ => 0
  | .two _ => 1
  | .skip _ => 1
  | .three _ => 2

/-- R199: PC passes the operand byte of the entry, which is not read. -/
def Slot.passes : Slot → Bool
  | .skip _ => true
  | .one _ | .two _ | .three _ => false

/-- R199: the instructions whose operand byte is not read are the XXX of mode IMM. -/
def Instr.passes : Instr → Bool
  | .xxx _ (.imm _) => true
  | _ => false

theorem Instr.passes_iff (i : Instr) : i.passes = true ↔ ∃ op n, i = .xxx op (.imm n) := by
  constructor
  · intro h
    unfold Instr.passes at h
    split at h
    · exact ⟨_, _, rfl⟩
    · cases h
  · rintro ⟨op, n, rfl⟩
    rfl

/-- R70, R41: the entry makes `i` of these operand bytes, a word's low byte first. -/
inductive Slot.Yields : Slot → List Byte → Instr → Prop where
  | one (i : Instr) : Yields (.one i) [] i
  | two (f : Byte → Instr) (t : Byte) : Yields (.two f) [t] (f t)
  | skip (f : Byte → Instr) (n : Byte) : Yields (.skip f) [n] (f n)
  | three (f : Addr → Instr) (w : Addr) : Yields (.three f) [lo8 w, hi8 w] (f w)

theorem Slot.Yields.length_eq {s : Slot} {operands : List Byte} {i : Instr} (y : s.Yields operands i) :
    operands.length = s.operandCount := by
  cases y <;> rfl

/-- An entry makes something of any bytes that are as many as it takes. -/
theorem Slot.exists_yields {s : Slot} {operands : List Byte} (h : operands.length = s.operandCount) :
    ∃ i, s.Yields operands i := by
  cases s with
  | one i =>
    obtain rfl := List.length_eq_zero_iff.1 h
    exact ⟨_, .one i⟩
  | two f =>
    obtain ⟨t, rfl⟩ := List.length_eq_one_iff.1 h
    exact ⟨_, .two f t⟩
  | skip f =>
    obtain ⟨n, rfl⟩ := List.length_eq_one_iff.1 h
    exact ⟨_, .skip f n⟩
  | three f =>
    obtain ⟨lo, hi, rfl⟩ := List.length_eq_two.1 h
    have y := Slot.Yields.three f (word hi lo)
    rw [lo8_word, hi8_word] at y
    exact ⟨_, y⟩

theorem Slot.operandCount_le (s : Slot) : s.operandCount ≤ 2 := by
  cases s <;> simp [Slot.operandCount]

theorem operandCount_xxxSlot (op : Byte) (m : Mode) : (xxxSlot op m).operandCount = m.operandBytes := by
  cases m <;> rfl

/-! ## The decoder, by the entry of the opcode byte -/

section
variable {modes : XxxModes} {op : Byte}

/-- R70: operand bytes that make `i` decode to `i`, whatever follows them. -/
theorem decode_of_yields {operands : List Byte} {i : Instr} (y : (slotOf modes op).Yields operands i)
    (rest : List Byte) : decode modes (op :: (operands ++ rest)) = .ok (i, rest) := by
  generalize hs : slotOf modes op = s at y
  cases y <;> simp [decode, hs]

/-- R70, R91: bytes are refused only where operand bytes are missing. -/
theorem decode_truncated {rest : List Byte} (h : rest.length < (slotOf modes op).operandCount) :
    decode modes (op :: rest) = .error (.truncated op) := by
  cases hs : slotOf modes op with
  | one i => simp [hs, Slot.operandCount] at h
  | two f | skip f =>
    obtain rfl : rest = [] := by simpa [hs, Slot.operandCount] using h
    simp [decode, hs]
  | three f =>
    match rest with
    | [] | [_] => simp [decode, hs]
    | _ :: _ :: _ => simp [hs, Slot.operandCount] at h

/-- R70: with enough bytes, the first ones are the operand and the others are left. -/
theorem decode_of_le {rest : List Byte} (h : (slotOf modes op).operandCount ≤ rest.length) :
    ∃ i, (slotOf modes op).Yields (rest.take (slotOf modes op).operandCount) i ∧
      decode modes (op :: rest) = .ok (i, rest.drop (slotOf modes op).operandCount) := by
  obtain ⟨i, y⟩ := Slot.exists_yields (s := slotOf modes op)
    (operands := rest.take (slotOf modes op).operandCount) (by simpa using h)
  have d := decode_of_yields y (rest.drop (slotOf modes op).operandCount)
  rw [List.take_append_drop] at d
  exact ⟨i, y, d⟩

end

/-- What decodes is an opcode byte and operand bytes its entry makes the instruction of. -/
theorem yields_of_decode {modes : XxxModes} {bytes rest : List Byte} {i : Instr}
    (h : decode modes bytes = .ok (i, rest)) :
    ∃ op operands, bytes = op :: (operands ++ rest) ∧ (slotOf modes op).Yields operands i := by
  cases bytes with
  | nil => cases h
  | cons op tail =>
    rcases Nat.lt_or_ge tail.length (slotOf modes op).operandCount with short | enough
    · cases (decode_truncated short).symm.trans h
    · obtain ⟨j, y, d⟩ := decode_of_le enough
      cases d.symm.trans h
      exact ⟨op, _, by rw [List.take_append_drop], y⟩

/-! ## From the entry to the instruction -/

/-- R88: whatever a cell of the opcode map makes has as its encoding the bytes it was made of. -/
theorem encode_of_cell_yields {op : Byte} {s : Slot} (h : cellOf op = some s) {modes : XxxModes}
    {operands : List Byte} {i : Instr} (y : s.Yields operands i) :
    i.WellFormed modes = true ∧ encode i = op :: operands := by
  have e : op = BitVec.ofNat 8 op.toNat := by simp
  have hn : op.toNat < 256 := op.isLt
  generalize op.toNat = n at e hn
  subst e
  interval_cases n <;> cases h <;> cases y <;> exact ⟨rfl, rfl⟩

/-- R91, R92: an unassigned byte makes an XXX of that byte, in the mode its slot has. -/
theorem encode_of_xxxSlot_yields {op : Byte} (h : Machine.isUnassigned op = true) {modes : XxxModes}
    {operands : List Byte} {i : Instr} (y : (xxxSlot op (modes.mode op)).Yields operands i) :
    i.WellFormed modes = true ∧ encode i = op :: operands := by
  cases hm : modes.mode op <;> rw [hm] at y <;> cases y <;> exact ⟨(wellFormed_xxx _ _ _).2 ⟨h, hm⟩, rfl⟩

/-- R70, R71: the entry of a byte makes only well-formed instructions, whose encoding is the bytes they are made of. -/
theorem encode_of_yields {modes : XxxModes} {op : Byte} {operands : List Byte} {i : Instr}
    (y : (slotOf modes op).Yields operands i) : i.WellFormed modes = true ∧ encode i = op :: operands := by
  cases hc : cellOf op with
  | some s => exact encode_of_cell_yields hc (slotOf_cell hc modes ▸ y)
  | none =>
    have h : Machine.isUnassigned op = true := by simp [isUnassigned_iff, hc]
    exact encode_of_xxxSlot_yields h (slotOf_xxx h modes ▸ y)

/-! ## From the instruction to the entry -/

/-- R89, R92: the entry of an instruction's opcode byte makes it of its operand bytes, and passes the operand byte by
exactly where the instruction does. -/
structure Slot.EntryOf (s : Slot) (i : Instr) : Prop where
  yields : s.Yields i.operandBytes i
  passes : s.passes = i.passes

theorem entryOf_xxxSlot (op : Byte) (f : XxxForm) : (xxxSlot op f.mode).EntryOf (.xxx op f) := by
  cases f with
  | mem m => cases m <;> exact ⟨by constructor, rfl⟩
  | imp | acc | imm | rel | ind => exact ⟨by constructor, rfl⟩

/-- R88, R89: the map by opcode byte and the list by mnemonic agree. The constructor of `Yields` is the format R70 gives
the form's mode; the map's cell computes once the opcode byte is a literal. -/
theorem slotOf_opcode {modes : XxxModes} {i : Instr} (h : i.WellFormed modes = true) :
    (slotOf modes i.opcode).EntryOf i := by
  cases i with
  | xxx op f =>
    obtain ⟨hop, hmode⟩ := (wellFormed_xxx modes op f).1 h
    rw [Instr.opcode, slotOf_xxx hop, hmode]
    exact entryOf_xxxSlot op f
  | lda f | ldx f | ldy f | sta f | stx f | sty f | and f | eor f | ora f | bit f | adc f | sbc f | cmp f | cpx f
  | cpy f | inc f | dec f | asl f | lsr f | rol f | ror f | jmp f =>
    cases f <;>
      simp only [Instr.opcode, Decode.aluOpcode, Decode.ldxOpcode, Decode.ldyOpcode, Decode.staOpcode,
        Decode.stxOpcode, Decode.styOpcode, Decode.bitOpcode, Decode.cpxOpcode, Decode.incOpcode, Decode.shiftOpcode,
        Decode.jmpOpcode] <;>
      exact ⟨by constructor, rfl⟩
  | jsr w => rw [Instr.opcode]; exact ⟨.three _ w, rfl⟩
  | bcc t | bcs t | beq t | bmi t | bne t | bpl t | bvc t | bvs t =>
    simp only [Instr.opcode]
    exact ⟨.two _ t, rfl⟩
  | tax | tay | txa | tya | tsx | txs | pha | php | pla | plp | inx | iny | dex | dey | rts | brk | rti
  | clc | cld | cli | clv | sec | sed | sei | nop => exact ⟨.one _, rfl⟩

/-! ## Lengths (R70) -/

theorem length_memBytes (m : MemOperand) : (Decode.memBytes m).length = m.mode.operandBytes := by
  cases m <;> rfl

theorem length_sourceBytes (src : Source) : (Decode.sourceBytes src).length = src.mode.operandBytes := by
  cases src with
  | imm n => rfl
  | mem m => exact length_memBytes m

theorem length_operandBytes (i : Instr) : i.operandBytes.length = i.mode.operandBytes := by
  cases i with
  | lda f | ldx f | ldy f | and f | eor f | ora f | bit f | adc f | sbc f | cmp f | cpx f | cpy f =>
    exact length_sourceBytes f.source
  | sta f | stx f | sty f | inc f | dec f => exact length_memBytes f.operand
  | asl f | lsr f | rol f | ror f | jmp f => cases f <;> rfl
  | xxx op f =>
    cases f with
    | mem m => exact length_memBytes m
    | imp | acc | imm | rel | ind => rfl
  | _ => rfl

theorem length_encode (i : Instr) : (encode i).length = i.length := by
  simp [encode, Instr.length, length_operandBytes, Nat.add_comm]

/-! ## The obligations -/

/-- Settles O1: the entry of the opcode byte makes the instruction of its operand bytes, and so the decoder does. -/
theorem decodeOfEncode : Obligations.DecodeOfEncode := by
  intro modes i rest h
  exact ⟨decode_of_yields (slotOf_opcode h).yields rest, length_encode i⟩

/-- Settles O2: what decodes was made by an entry of the bytes it was made of. -/
theorem encodeOfDecode : Obligations.EncodeOfDecode := by
  intro modes bytes rest i h
  obtain ⟨op, operands, rfl, y⟩ := yields_of_decode h
  obtain ⟨hw, he⟩ := encode_of_yields y
  exact ⟨hw, by rw [he, List.cons_append]⟩

/-- Settles O3: `n` is the number of operand bytes the entry takes. -/
theorem everyByteDecodes : Obligations.EveryByteDecodes := by
  refine fun modes => ⟨rfl, fun op => ⟨(slotOf modes op).operandCount, Slot.operandCount_le _, fun h => ?mode,
    fun rest => ⟨fun enough => ?decodes, decode_truncated⟩⟩⟩
  case mode => rw [slotOf_xxx h, operandCount_xxxSlot]
  case decodes =>
    obtain ⟨i, y, d⟩ := decode_of_le enough
    obtain ⟨hop, hoperands⟩ := List.cons.inj (encode_of_yields y).2
    refine ⟨i, d, hop, ?_⟩
    rw [← length_encode, encode, hoperands, List.length_cons, y.length_eq]

/-- Settles O4: each word is the encoding of its instruction, which is well formed. -/
theorem sampleWords : Obligations.SampleWords := by
  have decodes : ∀ (i : Instr) (modes : XxxModes), i.WellFormed modes = true →
      decode modes (encode i) = .ok (i, []) := fun i modes h => by
    simpa using (decodeOfEncode modes i [] h).1
  refine ⟨fun modes => ?_, decodes (.xxx 0x0C (.mem (.abs 0x2002))) _ (by decide)⟩
  exact ⟨decodes (.lda (.imm 0x10)) modes rfl, decodes (.ldx (.zpy 0x10)) modes rfl,
    decodes (.sta (.abs 0x0200)) modes rfl, decodes .txs modes rfl, decodes .php modes rfl,
    decodes (.bit (.abs 0x2002)) modes rfl, decodes (.adc (.izy 0x10)) modes rfl,
    decodes (.rol (.abx 0x1234)) modes rfl, decodes (.asl .acc) modes rfl, decodes (.jmp (.ind 0x02FF)) modes rfl,
    decodes (.bne 0xFB) modes rfl, decodes .brk modes rfl, decodes .sei modes rfl⟩

end Sys2Proof
end

section
/-! PROOFS. The fetch (R12, R45, R72): which bytes it reads and the state it leaves, for every instruction whose encoding
stands at PC; then one tick that runs the instruction at PC (R211, R430). -/

namespace Sys2Proof.Machine

/-! ## Byte fetches in a row -/

/-- R12: the bytes `n` fetches in a row give. -/
def fetchedBytes : Nat → State → List Byte
  | 0, _ => []
  | n + 1, st => (fetchByte st).1 :: fetchedBytes n (fetchByte st).2

/-- R12: the state after `n` fetches in a row. -/
def afterFetches : Nat → State → State
  | 0, st => st
  | n + 1, st => afterFetches n (fetchByte st).2

@[simp] theorem fetchByte_pc (st : State) : (fetchByte st).2.pc = st.pc + 1 := rfl

/-- R199: passing the byte after one fetched gives the byte a second fetch would give. -/
theorem passByte_fetchByte (st : State) :
    passByte (fetchByte st).2 = ((fetchByte (fetchByte st).2).1, (fetchByte st).2.setPc (st.pc + 2)) := by
  rw [passByte, fetchByte_pc, BitVec.add_assoc]
  rfl

theorem add_one_add_ofNat (pc : Addr) (k : Nat) : pc + 1 + BitVec.ofNat 16 k = pc + BitVec.ofNat 16 (k + 1) := by
  rw [BitVec.add_assoc, Nat.add_comm, BitVec.ofNat_add]
  rfl

theorem pc_afterFetches (n : Nat) (st : State) : (afterFetches n st).pc = st.pc + BitVec.ofNat 16 n := by
  induction n generalizing st with
  | zero => simp [afterFetches]
  | succ n ih => rw [afterFetches, ih, fetchByte_pc, add_one_add_ofNat]

theorem take_fetchedBytes {k n : Nat} (h : k ≤ n) (st : State) : (fetchedBytes n st).take k = fetchedBytes k st := by
  induction k generalizing n st with
  | zero => rfl
  | succ k ih =>
    obtain ⟨m, rfl⟩ : ∃ m, n = m + 1 := ⟨n - 1, by omega⟩
    simp [fetchedBytes, ih (Nat.le_of_succ_le_succ h)]

/-! ## The fetch of an instruction -/

/-- R72, R199: the state the fetch of `i` leaves: PC passes the operand byte of an XXX of mode IMM, and every other byte
is fetched. -/
def afterInstr (i : Instr) (st : State) : State :=
  if i.passes then (fetchByte st).2.setPc (st.pc + 2) else afterFetches i.length st

theorem length_of_passes {i : Instr} (h : i.passes = true) : i.length = 2 := by
  obtain ⟨op, n, rfl⟩ := i.passes_iff.1 h
  rfl

theorem pc_afterInstr (i : Instr) (st : State) : (afterInstr i st).pc = st.pc + BitVec.ofNat 16 i.length := by
  unfold afterInstr
  split
  · rw [length_of_passes ‹_›]; rfl
  · exact pc_afterFetches i.length st

/-- R72: the fetch follows the table entry of the opcode byte. -/
theorem fetchInstr_of_yields {st : State} {s : Slot} (hs : slotOf st.launch.xxxMode (fetchByte st).1 = s)
    {operands : List Byte} {i : Instr} (y : s.Yields operands i)
    (hb : fetchedBytes operands.length (fetchByte st).2 = operands) :
    fetchInstr st = (i, if s.passes then (fetchByte st).2.setPc (st.pc + 2)
      else afterFetches operands.length (fetchByte st).2) := by
  cases y with
  | one i => simp [fetchInstr, hs, Slot.passes, afterFetches]
  | two f t =>
    have ht : (fetchByte (fetchByte st).2).1 = t := List.head_eq_of_cons_eq hb
    simp [fetchInstr, hs, Slot.passes, afterFetches, ht]
  | skip f n =>
    have hn : (fetchByte (fetchByte st).2).1 = n := List.head_eq_of_cons_eq hb
    simp [fetchInstr, hs, Slot.passes, passByte_fetchByte, hn]
  | three f w =>
    have hw : word (fetchByte (fetchByte (fetchByte st).2).2).1 (fetchByte (fetchByte st).2).1 = w := by
      obtain ⟨hlo, htail⟩ := List.cons.inj hb
      rw [hlo, List.head_eq_of_cons_eq htail, word_hi8_lo8]
    simp [fetchInstr, hs, Slot.passes, afterFetches, hw]

/-- R72: where the bytes to be fetched are the encoding of `i`, the fetch gives `i`. -/
theorem fetchInstr_of_encode {i : Instr} {st : State} (hw : i.WellFormed st.launch.xxxMode = true)
    (hb : fetchedBytes i.length st = encode i) : fetchInstr st = (i, afterInstr i st) := by
  have hlen : i.length = i.operandBytes.length + 1 := by rw [← length_encode]; rfl
  obtain ⟨y, hp⟩ := slotOf_opcode hw
  rw [hlen] at hb
  obtain ⟨hop, hoperands⟩ := List.cons.inj hb
  have hf := fetchInstr_of_yields (congrArg (slotOf _) hop) y hoperands
  rw [hf, hp, afterInstr, hlen, afterFetches]

/-- R70: bytes that decode begin with the encoding of what they decode to. -/
theorem take_of_decode {modes : XxxModes} {bytes rest : List Byte} {i : Instr}
    (h : decode modes bytes = .ok (i, rest)) :
    i.WellFormed modes = true ∧ i.length ≤ bytes.length ∧ bytes.take i.length = encode i := by
  obtain ⟨hw, rfl⟩ := encodeOfDecode _ _ _ _ h
  simp [hw, ← length_encode]

/-- Settles O5: the three bytes begin with the encoding of the instruction, which is what the fetch reads. -/
theorem fetchReadsTheInstruction : Obligations.FetchReadsTheInstruction := by
  intro st i rest h
  obtain ⟨hw, hle, hbytes⟩ := take_of_decode h
  have hb : fetchedBytes i.length st = encode i := (take_fetchedBytes hle st).symm.trans hbytes
  rw [fetchInstr_of_encode hw hb]
  refine ⟨rfl, ?passed, fun hne => ?fetched, pc_afterInstr i st⟩
  case passed =>
    rintro op n rfl
    rfl
  case fetched =>
    have hp : ¬ i.passes = true := by simpa [i.passes_iff] using hne
    rw [afterInstr, if_neg hp, Instr.length]
    cases i.mode <;> rfl

/-! ## Instructions in plain memory -/

/-- R45, R50: a fetch from plain memory changes only PC. -/
theorem fetchByte_of_storage {st : State} (h : (route st.launch.cart st.pc).isStorage = true) :
    fetchByte st = (busPeek st.pc st, st.setPc (st.pc + 1)) := by
  rw [fetchByte, busRead_state_of_storage h]
  rfl

/-- The `n` bytes at `pc` lie in plain memory. -/
def InStorage (c : Cartridge) (pc : Addr) (n : Nat) : Prop :=
  ∀ k, k < n → (route c (pc + BitVec.ofNat 16 k)).isStorage = true

theorem InStorage.head {c : Cartridge} {pc : Addr} {n : Nat} (h : InStorage c pc (n + 1)) :
    (route c pc).isStorage = true := by
  simpa using h 0 (Nat.succ_pos n)

theorem InStorage.tail {c : Cartridge} {pc : Addr} {n : Nat} (h : InStorage c pc (n + 1)) :
    InStorage c (pc + 1) n := fun k hk => by
  rw [add_one_add_ofNat]
  exact h (k + 1) (Nat.succ_lt_succ hk)

theorem afterFetches_of_storage {n : Nat} {st : State} (hs : InStorage st.launch.cart st.pc n) :
    afterFetches n st = st.setPc (st.pc + BitVec.ofNat 16 n) := by
  induction n generalizing st with
  | zero => rw [afterFetches, BitVec.add_zero]; rfl
  | succ n ih =>
    rw [afterFetches, fetchByte_of_storage hs.head, ih (st := st.setPc (st.pc + 1)) hs.tail, ← add_one_add_ofNat]
    rfl

theorem fetchedBytes_of_storage {n : Nat} {st : State} (hs : InStorage st.launch.cart st.pc n) :
    fetchedBytes n st = (List.range n).map fun k => busPeek (st.pc + BitVec.ofNat 16 k) st := by
  induction n generalizing st with
  | zero => rfl
  | succ n ih =>
    rw [fetchedBytes, fetchByte_of_storage hs.head, ih (st := st.setPc (st.pc + 1)) hs.tail, List.range_succ_eq_map,
      List.map_cons, List.map_map, BitVec.add_zero]
    refine congrArg _ (List.map_congr_left fun k hk => ?_)
    have hk := hs.tail k (List.mem_range.1 hk)
    rw [Function.comp_apply, ← add_one_add_ofNat]
    exact busPeek_congr rfl rfl rfl hk

/-- R72: the fetch of an instruction in plain memory moves PC past it and changes nothing else. -/
theorem afterInstr_of_storage {i : Instr} {st : State} (hs : InStorage st.launch.cart st.pc i.length) :
    afterInstr i st = st.setPc (st.pc + BitVec.ofNat 16 i.length) := by
  unfold afterInstr
  split
  · rw [length_of_passes ‹_›] at hs ⊢
    rw [fetchByte_of_storage hs.head]
    rfl
  · exact afterFetches_of_storage hs

/-- R72: what the fetch gives when bytes in plain memory at PC decode to `i`. -/
theorem fetchInstr_of_decode {i : Instr} {rest : List Byte} {st : State}
    (hs : InStorage st.launch.cart st.pc i.length)
    (h : decode st.launch.xxxMode [busPeek st.pc st, busPeek (st.pc + 1) st, busPeek (st.pc + 2) st] = .ok (i, rest)) :
    fetchInstr st = (i, st.setPc (st.pc + BitVec.ofNat 16 i.length)) := by
  obtain ⟨hw, (hle : i.length ≤ 3), hbytes⟩ := take_of_decode h
  have hpeeks : [busPeek st.pc st, busPeek (st.pc + 1) st, busPeek (st.pc + 2) st] =
      (List.range 3).map fun k => busPeek (st.pc + BitVec.ofNat 16 k) st := by
    simp [List.range_succ]
  have hb : fetchedBytes i.length st = encode i := by
    rw [fetchedBytes_of_storage hs, ← hbytes, hpeeks, ← List.map_take, List.take_range, Nat.min_eq_left hle]
  rw [fetchInstr_of_encode hw hb, afterInstr_of_storage hs]

/-! ## One tick that runs the instruction at PC -/

/-- R254: the marks of the last boundary action are no part of what an address reads as. -/
theorem busPeek_marks (addr : Addr) (st : State) (n i : Bool) :
    busPeek addr ((st.setDidNmi n).setDidIrq i) = busPeek addr st := by
  unfold busPeek busRead
  simp only [State.setDidIrq_launch, State.setDidNmi_launch]
  split <;> rfl

/-- R211: the CPU cycle at a boundary with no interrupt to service runs the instruction fetched. -/
theorem cpuCycle_of_boundary {st : State} (hh : st.halted = false) (hbudget : st.budget = 0)
    (hn : st.nmiPending = false) (hi : st.irqPending = false ∨ st.flag .i = true) :
    cpuCycle st = mapNext retireCycle (exec (fetchInstr ((st.setDidNmi false).setDidIrq false)).1
      (fetchInstr ((st.setDidNmi false).setDidIrq false)).2) := by
  have hirq : ¬ (st.irqPending = true ∧ st.flag .i = false) := by
    rcases hi with h | h <;> simp [h]
  simp [cpuCycle, hh, hbudget, boundaryAction, hn, hirq]

theorem mapNext_mapNext (f g : State → State) (o : Host.Outcome State Fault Refusal) :
    mapNext f (mapNext g o) = mapNext (fun t => f (g t)) o := by
  cases o <;> rfl

/-- Settles O6: on a CPU tick the step is the CPU cycle, which is at a boundary and fetches `i`. -/
theorem stepRunsTheDecodedInstruction : Obligations.StepRunsTheDecodedInstruction := by
  intro st i rest
  have hl : (ppuTick (hostPhase st)).launch = st.launch := (sustains_hostPhase st).ppuTick.launch
  rw [← hl, step, tick]
  generalize ppuTick (hostPhase st) = s
  intro hturn hh hbudget hn hi hd hs
  have hf := fetchInstr_of_decode (st := (s.setDidNmi false).setDidIrq false) hs (by simpa [busPeek_marks] using hd)
  simp only [hturn, if_true, cpuCycle_of_boundary hh hbudget hn hi, mapNext_mapNext, hf]
  rfl

end Sys2Proof.Machine
end

section
/-! PROOFS. The addressing modes in numbers (R73, R77 to R86): zero-page addresses modulo 256, an index added modulo 65536
with its page-cross mark, and the pointers of IZX and IZY. -/

namespace Sys2Proof.Machine

/-- R8: a byte as an address is its number. -/
theorem zext16_eq (b : Byte) : zext16 b = BitVec.ofNat 16 b.toNat := (BitVec.ofNat_toNat 16 b).symm

theorem toNat_hi8 (w : Addr) : (hi8 w).toNat = w.toNat / 256 := by
  have h := w.isLt
  simp [hi8, Nat.shiftRight_eq_div_pow]
  omega

/-- R82: the sum modulo 65536, marked where the high byte changed. -/
theorem indexed_eq (base : Addr) (index : Byte) (st : State) :
    indexed base index st =
      { ea := BitVec.ofNat 16 (base.toNat + index.toNat)
        crossed := decide ((base.toNat + index.toNat) % 65536 / 256 ≠ base.toNat / 256), state := st } := by
  have hea : base + zext16 index = BitVec.ofNat 16 (base.toNat + index.toNat) := by
    rw [BitVec.ofNat_add, BitVec.ofNat_toNat, BitVec.setWidth_eq, zext16_eq]
  have hcross : (hi8 (base + zext16 index) != hi8 base) =
      decide ((base.toNat + index.toNat) % 65536 / 256 ≠ base.toNat / 256) := by
    rw [Bool.eq_iff_iff, bne_iff_ne, decide_eq_true_iff, Ne, ← BitVec.toNat_inj, toNat_hi8, toNat_hi8, hea,
      BitVec.toNat_ofNat]
  rw [indexed, hcross, hea]

/-- R44: the pointer's two bytes, the second at the next address of page 0. -/
theorem readZeroPage16_eq_busPeek (t : Byte) (st : State) :
    readZeroPage16 t st = (word (busPeek (zext16 (t + 1)) st) (busPeek (zext16 t) st), st) := by
  simp [readZeroPage16, busPeek]

/-- Settles O22: by the mode; the page-0 sums are `zext16` of a byte sum, the indexed ones `indexed_eq`. -/
theorem effectiveAddresses : Obligations.EffectiveAddresses := by
  intro st t w
  have zp (index : Byte) : zext16 (t + index) = BitVec.ofNat 16 ((t.toNat + index.toNat) % 256) := by
    rw [zext16_eq, BitVec.toNat_add]
  refine ⟨rfl, ?zpx, ?zpy, rfl, indexed_eq w st.x st, indexed_eq w st.y st, ?izx, ?izy, rfl, ?fetch⟩
  case zpx => rw [resolve, zp]
  case zpy => rw [resolve, zp]
  case izx =>
    have hnext : zext16 (t + st.x + 1) = BitVec.ofNat 16 ((t.toNat + st.x.toNat + 1) % 256) := by
      simp [zext16_eq, BitVec.toNat_add]
    simp only [resolve, readZeroPage16_eq_busPeek, hnext, zp]
  case izy =>
    rintro base rfl
    have hnext : zext16 (t + 1) = BitVec.ofNat 16 ((t.toNat + 1) % 256) := zp 1
    simp only [resolve, readZeroPage16_eq_busPeek, hnext, indexed_eq]
  case fetch =>
    intro m
    simp only [fetchOperand, resolve_state]
    rfl

end Sys2Proof.Machine
end

section
/-! PROOFS. Loads, stores and register moves (R101 to R112). A load and a move write one register and set Z and N from
it, whichever register it is, so each kind is one lemma over the register; the three stores are one lemma over the
byte stored. -/

namespace Sys2Proof.Machine

/-! ## Frames: devices and the bus -/

section
variable {written : List Part} {flags : List Flag} {st t : State} (k : Keeps written flags st t)
include k

theorem Keeps.setX (h : .x ∈ written) (v : Byte) : Keeps written flags st (t.setX v) := { k with x := absurd h }
theorem Keeps.setY (h : .y ∈ written) (v : Byte) : Keeps written flags st (t.setY v) := { k with y := absurd h }
theorem Keeps.setPpu (h : .ppu ∈ written) (v : Ppu) : Keeps written flags st (t.setPpu v) :=
  { k with ppu := absurd h }
theorem Keeps.setPads (h : .pads ∈ written) (v : Pads) : Keeps written flags st (t.setPads v) :=
  { k with pads := absurd h }

/-- R252, R50: a read changes the PPU or the controller bytes at most. -/
theorem Keeps.busRead (hppu : .ppu ∈ written) (hpads : .pads ∈ written) (addr : Addr) :
    Keeps written flags st (Machine.busRead addr t).2 := by
  rcases busRead_cases addr t with h | ⟨_, -, h⟩ | ⟨_, -, h⟩ <;> rw [h]
  · exact k
  · exact k.setPpu hppu _
  · exact k.setPads hpads _

theorem Keeps.fetchOperand (hppu : .ppu ∈ written) (hpads : .pads ∈ written) (src : Source) :
    Keeps written flags st (Machine.fetchOperand src t).state := by
  rcases fetchOperand_state src t with h | ⟨addr, h⟩ <;> rw [h]
  · exact k
  · exact k.busRead hppu hpads addr

/-- R253: a write changes memory, the devices and the halt latch at most: the laws `busWrite_a` to `busWrite_hostCalls`,
field by field. -/
theorem Keeps.busWrite (h : [Part.halted, .ppu, .apu, .pads] ⊆ written) (addr : Addr) (b : Byte) :
    Keeps written flags st (Machine.busWrite addr b t) := by
  have hdevices : .halted ∈ written ∧ .ppu ∈ written ∧ .apu ∈ written ∧ .pads ∈ written := by simpa using h
  cases k
  constructor <;> intros <;> simp_all

end

/-- What the bytes of memory read as depends on RAM, PRG-RAM and the launch parameters alone. -/
theorem StoresBytes.of_eq {stores : List (Addr × Byte)} {st t u : State} (h : StoresBytes stores st t)
    (hlaunch : t.launch = st.launch) (hr : u.ram = t.ram) (hp : u.prgRam = t.prgRam) (hl : u.launch = t.launch) :
    StoresBytes stores st u := fun addr hs =>
  (busPeek_congr hr hp hl (hlaunch ▸ hs)).trans (h addr hs)

/-! ## Registers -/

/-- The four registers that a load or a move writes. -/
inductive Register where
  | a | x | y | s

/-- The name a frame has for the register. -/
def Register.part : Register → Part
  | .a => .a
  | .x => .x
  | .y => .y
  | .s => .s

def State.reg (st : State) : Register → Byte
  | .a => st.a
  | .x => st.x
  | .y => st.y
  | .s => st.s

def State.setReg (st : State) : Register → Byte → State
  | .a => st.setA
  | .x => st.setX
  | .y => st.setY
  | .s => st.setS

section
variable (st : State) (r : Register) (v : Byte)

@[simp] theorem State.reg_setReg : (st.setReg r v).reg r = v := by cases r <;> rfl
@[simp] theorem State.reg_setZN : (st.setZN v).reg r = st.reg r := by cases r <;> rfl
@[simp] theorem State.reg_setBudget (n : Nat) : (st.setBudget n).reg r = st.reg r := by cases r <;> rfl
@[simp] theorem State.setReg_ram : (st.setReg r v).ram = st.ram := by cases r <;> rfl
@[simp] theorem State.setReg_prgRam : (st.setReg r v).prgRam = st.prgRam := by cases r <;> rfl
@[simp] theorem State.setReg_ppu : (st.setReg r v).ppu = st.ppu := by cases r <;> rfl
@[simp] theorem State.setReg_pads : (st.setReg r v).pads = st.pads := by cases r <;> rfl
@[simp] theorem State.setReg_launch : (st.setReg r v).launch = st.launch := by cases r <;> rfl

end

theorem Keeps.setReg {written : List Part} {flags : List Flag} {st t : State} (k : Keeps written flags st t)
    {r : Register} (h : r.part ∈ written) (v : Byte) : Keeps written flags st (t.setReg r v) := by
  cases r with
  | a => exact k.setA h v
  | x => exact k.setX h v
  | y => exact k.setY h v
  | s => exact k.setS h v

/-! ## The three kinds of instruction -/

/-- R101, R102, R103: `m <- Fetch(); R <- m; SetZN(R)`. -/
theorem readInstr_load (i : Instr) (src : Source) (r : Register) (st : State) :
    ∃ t, readInstr i.opcode src (fun m st => (st.setReg r m).setZN m) st = .next t ∧
      t.reg r = (fetchOperand src st).value ∧ ShowsZN (t.reg r) t ∧ ReadsOperand i src st t ∧
      Keeps [r.part, .ppu, .pads] [.z, .n] st t := by
  refine ⟨_, readInstr_next _ _ _ _, by simp, ?shows, ⟨by simp, by simp, by simp, .of_eq ?_ ?_ ?_⟩, ?keeps⟩
  case shows => constructor <;> simp
  case keeps =>
    have fetched := (Keeps.refl [r.part, .ppu, .pads] [.z, .n] st).fetchOperand (by simp) (by simp) src
    exact ((fetched.setReg (by simp) _).setZN (by simp) (by simp) _).setBudget _
  all_goals simp

/-- R104, R105, R106, R100: `MemWrite(ea, 1, v)`; resolving `ea` changes nothing, so the write is made in `st`. -/
theorem storeInstr_stores (i : Instr) (m : MemOperand) (v : Byte) (st : State) :
    ∃ t, storeInstr i.opcode m v st = .next t ∧ StoresOne (resolve m st).ea v st st t ∧
      t.budget = st.launch.cycles i.opcode ∧ Keeps [.halted, .ppu, .apu, .pads] [] st t := by
  refine ⟨_, storeInstr_next _ _ _ _, ⟨?memory, ⟨rfl, rfl, rfl, rfl⟩, ?plain⟩, rfl, ?keeps⟩
  case memory => exact (busWrite_stores _ _ _).of_eq (by simp) rfl rfl rfl
  case plain => exact fun h => { busWrite_devices_of_storage h with }
  case keeps => exact ((Keeps.refl _ _ st).busWrite (List.Subset.refl _) _ _).setBudget _

/-- R107 to R111: `R <- value; SetZN(R)`. -/
theorem impliedInstr_move {op : Byte} {n : Nat} (hn : Launch.default.cycles op = n) (r : Register)
    (value : State → Byte) (st : State) :
    ∃ t, impliedInstr op (fun st => (st.setReg r (value st)).setZN (value st)) st = .next t ∧
      t.reg r = value st ∧ ShowsZN (value st) t ∧ Takes op n st t ∧ Keeps [r.part] [.z, .n] st t ∧
      KeepsMemory st t :=
  ⟨_, impliedInstr_next _ _ _, by simp, showsZN_setZN _ _, ⟨rfl, hn⟩,
    (((Keeps.refl _ _ st).setReg (by simp) _).setZN (by simp) (by simp) _).setBudget _,
    .of_eq (by simp) (by simp) (by simp)⟩

/-- R112: `S <- X`. -/
theorem exec_txs_next (st : State) :
    exec .txs st = .next ((st.setS st.x).setBudget (st.launch.cycles 0x9A)) := by
  rw [exec_txs, impliedInstr_next]

/-! ## The obligations -/

/-- Settles O23: each load is a load of its register, and the table entries are evaluated. -/
theorem loads : Obligations.Loads :=
  ⟨fun f => readInstr_load (.lda f) f.source .a, fun f => readInstr_load (.ldx f) f.source .x,
    fun f => readInstr_load (.ldy f) f.source .y, fun _ _ => ⟨rfl, rfl, rfl⟩⟩

/-- Settles O24: each store writes its register at the effective address, and the table entries are evaluated. -/
theorem stores : Obligations.Stores :=
  ⟨fun f st => storeInstr_stores (.sta f) f.operand st.a st, fun f st => storeInstr_stores (.stx f) f.operand st.x st,
    fun f st => storeInstr_stores (.sty f) f.operand st.y st, fun _ _ => ⟨rfl, rfl, rfl⟩⟩

/-- Settles O25: five moves set Z and N; TXS writes S alone. -/
theorem registerMoves : Obligations.RegisterMoves :=
  ⟨impliedInstr_move rfl .x State.a, impliedInstr_move rfl .y State.a, impliedInstr_move rfl .a State.x,
    impliedInstr_move rfl .a State.y, impliedInstr_move rfl .x State.s,
    fun st => ⟨_, exec_txs_next st, rfl, ⟨rfl, rfl⟩, ((Keeps.refl _ _ st).setS (by simp) _).setBudget _,
      .of_eq rfl rfl rfl⟩, rfl⟩

end Sys2Proof.Machine
end

section
/-! PROOFS. AND, EOR, ORA and BIT (R131 to R134). A read-type instruction is the operand read, an effect and the budget:
what holds of every one whose effect writes neither a device nor memory is said once. The three that write A are then
one lemma over the bitwise operation. -/

namespace Sys2Proof.Machine

/-! ## The flags BIT writes -/

theorem Keeps.setFlag {written : List Part} {flags : List Flag} {st t : State} (k : Keeps written flags st t) {f : Flag}
    (h : f ∈ flags) (b : Bool) : Keeps written flags st (t.setFlag f b) :=
  { k with
    flag := fun g hg => by
      have hfg : f ≠ g := fun e => hg (e ▸ h)
      rw [State.flag_setFlag, if_neg hfg, k.flag g hg] }

section
variable (st : State) (m : Byte)

@[simp] theorem State.flag_z_testBits : (st.testBits m).flag .z = (st.a &&& m == 0) := by simp [State.testBits]
@[simp] theorem State.flag_n_testBits : (st.testBits m).flag .n = m.getLsbD 7 := by simp [State.testBits]
@[simp] theorem State.flag_v_testBits : (st.testBits m).flag .v = m.getLsbD 6 := by simp [State.testBits]

end

/-! ## Read-type instructions -/

/-- R73, R87: beside its effect on registers and flags, a read-type instruction leaves the side effects of the operand
read and the budget. -/
theorem readInstr_frame {i : Instr} {src : Source} {effect : Byte → State → State} {written : List Part}
    {flags : List Flag} {st t : State} (h : readInstr i.opcode src effect st = .next t)
    (hdevices : ∀ m s, (effect m s).ppu = s.ppu ∧ (effect m s).pads = s.pads)
    (hmemory : ∀ m s, (effect m s).ram = s.ram ∧ (effect m s).prgRam = s.prgRam)
    (hkeeps : ∀ m {s}, Keeps written flags st s → Keeps written flags st (effect m s))
    (hppu : .ppu ∈ written) (hpads : .pads ∈ written) :
    ReadsOperand i src st t ∧ Keeps written flags st t := by
  rw [readInstr_next] at h
  cases h
  obtain ⟨hp, hc⟩ := hdevices (fetchOperand src st).value (fetchOperand src st).state
  obtain ⟨hr, hprg⟩ := hmemory (fetchOperand src st).value (fetchOperand src st).state
  have keeps := hkeeps (fetchOperand src st).value ((Keeps.refl written flags st).fetchOperand hppu hpads src)
  exact ⟨⟨hp, hc, rfl, .of_eq (hr.trans (by simp)) (hprg.trans (by simp)) keeps.launch⟩, keeps.setBudget _⟩

/-- R131, R132, R133: `A <- A op m; SetZN(A)`, the effect that `exec_and`, `exec_eor` and `exec_ora` write out. -/
def State.combineA (op : Byte → Byte → Byte) (m : Byte) (st : State) : State :=
  (st.setA (op st.a m)).setZN (op st.a m)

/-- R131, R132, R133: a read-type instruction that combines A with the operand by `op`, which is `bit` at every bit. -/
theorem readInstr_combineA (i : Instr) (src : Source) {op : Byte → Byte → Byte} {bit : Bool → Bool → Bool}
    (hop : ∀ {a m : Byte} {k : Nat}, (op a m).getLsbD k = bit (a.getLsbD k) (m.getLsbD k)) (st : State) :
    ∃ t, readInstr i.opcode src (State.combineA op) st = .next t ∧
      (∀ k, t.a.getLsbD k = bit (st.a.getLsbD k) ((fetchOperand src st).value.getLsbD k)) ∧ ShowsZN t.a t ∧
      ReadsOperand i src st t ∧ Keeps [.a, .ppu, .pads] [.z, .n] st t := by
  have next := readInstr_next i.opcode src (State.combineA op) st
  refine ⟨_, next, fun k => ?bits, showsZN_setZN _ _, readInstr_frame next (fun _ _ => ⟨rfl, rfl⟩)
    (fun _ _ => ⟨rfl, rfl⟩) (fun _ _ keeps => ?keeps) (by simp) (by simp)⟩
  case bits => simp [State.combineA, hop]
  case keeps => exact (keeps.setA (by simp) _).setZN (by simp) (by simp) _

/-- R134: BIT changes Z, N and V alone. -/
theorem exec_bit_next (f : BitForm) (st : State) :
    ∃ t, exec (.bit f) st = .next t ∧
      (t.flag .z = true ↔ st.a &&& (fetchOperand f.source st).value = 0) ∧
      t.flag .n = (fetchOperand f.source st).value.getLsbD 7 ∧
      t.flag .v = (fetchOperand f.source st).value.getLsbD 6 ∧
      ReadsOperand (.bit f) f.source st t ∧ Keeps [.ppu, .pads] [.z, .n, .v] st t := by
  have next := readInstr_next (Instr.bit f).opcode f.source (fun m st => st.testBits m) st
  refine ⟨_, next, by simp, by simp, by simp, readInstr_frame next (fun _ _ => ⟨rfl, rfl⟩)
    (fun _ _ => ⟨rfl, rfl⟩) (fun _ _ keeps => ?keeps) (by simp) (by simp)⟩
  case keeps => exact ((keeps.setFlag (by simp) _).setFlag (by simp) _).setFlag (by simp) _

/-! ## The obligations -/

/-- Settles O28: each is its bitwise operation on A, and the table entries are evaluated. -/
theorem logicalOperations : Obligations.LogicalOperations :=
  ⟨fun f => readInstr_combineA (.and f) f.source BitVec.getLsbD_and,
    fun f => readInstr_combineA (.eor f) f.source BitVec.getLsbD_xor,
    fun f => readInstr_combineA (.ora f) f.source BitVec.getLsbD_or, fun _ _ => ⟨rfl, rfl, rfl⟩⟩

/-- Settles O29: the flags BIT writes are read off the operand, and the table entries are evaluated. -/
theorem bitTest : Obligations.BitTest := ⟨exec_bit_next, fun _ _ => ⟨rfl, rfl⟩⟩

end Sys2Proof.Machine
end

section
/-! PROOFS. Arithmetic (R140 to R151). The 9-bit adder in numbers comes first: its result, its carry and its overflow, and
what it gives on a complemented operand. ADC and SBC are then one lemma about adding to A, the compares one lemma over
the register, INC and DEC one lemma over the byte written back, and the register steps moves of a register to itself. -/

namespace Sys2Proof.Machine

/-! ## The adder in numbers (R140) -/

/-- R20: the sign bit in numbers. -/
theorem getLsbD_seven (b : Byte) : b.getLsbD 7 = decide (128 ≤ b.toNat) :=
  (BitVec.msb_eq_getLsbD_last b).symm.trans (BitVec.msb_eq_decide b)

/-- R140: the signed value of a byte, in the numbers of its unsigned one. -/
theorem toInt_eq_ite (b : Byte) : b.toInt = if 128 ≤ b.toNat then (b.toNat : Int) - 256 else b.toNat := by
  rw [BitVec.toInt_eq_toNat_cond]
  split <;> split <;> omega

section
variable (a m : Byte) (c : Bool)

/-- R140: the sum of two bytes and a carry fits in nine bits. -/
theorem toNat_addWithCarry : (addWithCarry a m c).toNat = a.toNat + m.toNat + c.toNat := by
  have ha := a.isLt
  have hm := m.isLt
  have hc := c.toNat_le
  simp [addWithCarry]
  omega

theorem toNat_addResult : (addResult a m c).toNat = (a.toNat + m.toNat + c.toNat) % 256 := by
  rw [addResult, BitVec.toNat_setWidth, toNat_addWithCarry]

theorem addCarry_iff : addCarry a m c = true ↔ 256 ≤ a.toNat + m.toNat + c.toNat := by
  have hmsb : addCarry a m c = (addWithCarry a m c).msb := (BitVec.msb_eq_getLsbD_last _).symm
  simp [hmsb, BitVec.msb_eq_decide, toNat_addWithCarry]

/-- R140: the formula for V says that A and the operand have the same sign and the result another one. -/
theorem addOverflow_iff : addOverflow a m c = true ↔
    a.toInt + m.toInt + c.toNat < -128 ∨ 127 < a.toInt + m.toInt + c.toNat := by
  have signs : addOverflow a m c = true ↔
      (128 ≤ a.toNat ↔ 128 ≤ m.toNat) ∧ ¬ (128 ≤ a.toNat ↔ 128 ≤ (addResult a m c).toNat) := by
    have bits : addOverflow a m c =
        (!(a.getLsbD 7 ^^ m.getLsbD 7) && (a.getLsbD 7 ^^ (addResult a m c).getLsbD 7)) := by
      simp [addOverflow]
    rw [bits, getLsbD_seven, getLsbD_seven, getLsbD_seven]
    by_cases h1 : 128 ≤ a.toNat <;> by_cases h2 : 128 ≤ m.toNat <;> simp [h1, h2]
  have ha := a.isLt
  have hm := m.isLt
  have hc := c.toNat_le
  rw [signs, toNat_addResult, toInt_eq_ite, toInt_eq_ite]
  omega

end

/-! ## The complemented operand (R141) -/

theorem xor_ones_eq_not (m : Byte) : m ^^^ 0xFF = ~~~ m := BitVec.xor_allOnes

theorem toNat_xor_ones (m : Byte) : (m ^^^ 0xFF).toNat = 255 - m.toNat := by
  rw [xor_ones_eq_not, BitVec.toNat_not]

theorem toInt_xor_ones (m : Byte) : (m ^^^ 0xFF).toInt = -1 - m.toInt := by
  have hm := m.isLt
  rw [toInt_eq_ite, toInt_eq_ite, toNat_xor_ones]
  split <;> split <;> omega

/-- R141: on the complemented operand the formula for V is that of a subtraction. -/
theorem addOverflow_xor_ones (a m : Byte) (c : Bool) :
    addOverflow a (m ^^^ 0xFF) c = ((a ^^^ m) &&& (a ^^^ addResult a (m ^^^ 0xFF) c)).getLsbD 7 := by
  have hnot : ~~~ (a ^^^ (m ^^^ 0xFF)) = a ^^^ m := by
    rw [BitVec.not_xor_right, xor_ones_eq_not, BitVec.not_not]
  rw [addOverflow, hnot]

/-! ## ADC and SBC (R140, R141) -/

section
variable (st : State) (m : Byte)

@[simp] theorem State.a_addToA : (st.addToA m).a = addResult st.a m (st.flag .c) := rfl
@[simp] theorem State.flag_c_addToA : (st.addToA m).flag .c = addCarry st.a m (st.flag .c) := by simp [State.addToA]
@[simp] theorem State.flag_v_addToA : (st.addToA m).flag .v = addOverflow st.a m (st.flag .c) := by
  simp [State.addToA]

end

/-- R140, R141: a read-type instruction that adds `given m` to A, `m` the operand. -/
theorem readInstr_addToA (i : Instr) (src : Source) (given : Byte → Byte) (st : State) :
    ∃ t, readInstr i.opcode src (fun m st => st.addToA (given m)) st = .next t ∧
      t.a = addResult st.a (given (fetchOperand src st).value) (st.flag .c) ∧
      t.flag .c = addCarry st.a (given (fetchOperand src st).value) (st.flag .c) ∧
      t.flag .v = addOverflow st.a (given (fetchOperand src st).value) (st.flag .c) ∧
      ShowsZN t.a t ∧ ReadsOperand i src st t ∧ Keeps [.a, .ppu, .pads] [.c, .v, .z, .n] st t := by
  have next := readInstr_next i.opcode src (fun m st => st.addToA (given m)) st
  refine ⟨_, next, by simp, by simp, by simp, showsZN_setZN _ _, readInstr_frame next (fun _ _ => ⟨rfl, rfl⟩)
    (fun _ _ => ⟨rfl, rfl⟩) (fun _ _ keeps => ?keeps) (by simp) (by simp)⟩
  case keeps =>
    exact (((keeps.setFlag (by simp) _).setFlag (by simp) _).setA (by simp) _).setZN (by simp) (by simp) _

/-- Settles O30: ADC adds the operand itself, and the adder in numbers gives A, C and V. (`addWithCarry` is the model's
9-bit sum.) -/
theorem addWithCarry_holds : Obligations.AddWithCarry := by
  refine ⟨fun f st => ?adc, fun _ _ => rfl⟩
  obtain ⟨t, next, ha, hc, hv, zn, reads, keeps⟩ := readInstr_addToA (.adc f) f.source id st
  refine ⟨t, next, ?a, ?c, ?v, ?formula, zn, reads, keeps⟩
  case a => rw [ha, toNat_addResult, id]
  case c => rw [hc, addCarry_iff, id]
  case v => rw [hv, addOverflow_iff, id]
  case formula => rw [hv, ha, addOverflow, id]

/-- Settles O31: SBC adds `255 - m`, and `a + (255 - m) + C` is `a - m - (1 - C)` and 256 more. -/
theorem subtractWithBorrow : Obligations.SubtractWithBorrow := by
  refine ⟨fun f st => ?sbc, fun _ _ => rfl⟩
  obtain ⟨t, next, ha, hc, hv, zn, reads, keeps⟩ := readInstr_addToA (.sbc f) f.source (· ^^^ 0xFF) st
  have hm := (fetchOperand f.source st).value.isLt
  have hcarry := (st.flag .c).toNat_le
  refine ⟨t, next, ?a, ?c, ?v, ?formula, zn, reads, keeps⟩
  case a =>
    rw [ha, toNat_addResult, toNat_xor_ones]
    omega
  case c =>
    rw [hc, addCarry_iff, toNat_xor_ones]
    omega
  case v =>
    rw [hv, addOverflow_iff, toInt_xor_ones]
    omega
  case formula => rw [hv, ha, addOverflow_xor_ones]

/-! ## Compares (R142 to R145) -/

section
variable (st : State) (reg m : Byte)

theorem State.flag_c_compareWith : (st.compareWith reg m).flag .c = true ↔ m.toNat ≤ reg.toNat := by
  simp [State.compareWith]

theorem State.flag_z_compareWith : (st.compareWith reg m).flag .z = true ↔ reg = m := by simp [State.compareWith]

theorem State.flag_n_compareWith :
    (st.compareWith reg m).flag .n = true ↔ 128 ≤ (reg.toNat + 256 - m.toNat) % 256 := by
  have hm := m.isLt
  have hn : (st.compareWith reg m).flag .n = (reg - m).msb := by simp [State.compareWith]
  rw [hn, BitVec.msb_eq_decide, decide_eq_true_iff, BitVec.toNat_sub]
  omega

end

@[simp] theorem fetchOperand_reg (src : Source) (st : State) (r : Register) :
    (fetchOperand src st).state.reg r = st.reg r := by
  cases r <;> simp [State.reg]

/-- R142: a compare of any register writes C, Z and N alone. -/
theorem readInstr_compareWith (i : Instr) (src : Source) (r : Register) (st : State) :
    ∃ t, readInstr i.opcode src (fun m st => st.compareWith (st.reg r) m) st = .next t ∧
      (t.flag .c = true ↔ (fetchOperand src st).value.toNat ≤ (st.reg r).toNat) ∧
      (t.flag .z = true ↔ st.reg r = (fetchOperand src st).value) ∧
      (t.flag .n = true ↔ 128 ≤ ((st.reg r).toNat + 256 - (fetchOperand src st).value.toNat) % 256) ∧
      ReadsOperand i src st t ∧ Keeps [.ppu, .pads] [.c, .z, .n] st t := by
  have next := readInstr_next i.opcode src (fun m st => st.compareWith (st.reg r) m) st
  rw [fetchOperand_reg] at next
  refine ⟨_, next, State.flag_c_compareWith _ _ _, State.flag_z_compareWith _ _ _, State.flag_n_compareWith _ _ _,
    readInstr_frame next (fun _ _ => ⟨rfl, rfl⟩) (fun _ _ => ⟨rfl, rfl⟩) (fun _ _ keeps => ?keeps) (by simp) (by simp)⟩
  case keeps => exact ((keeps.setFlag (by simp) _).setFlag (by simp) _).setFlag (by simp) _

/-- Settles O32: each is the compare of its register, and the table entries are evaluated. -/
theorem compares : Obligations.Compares :=
  ⟨fun f => readInstr_compareWith (.cmp f) f.source .a, fun f => readInstr_compareWith (.cpx f) f.source .x,
    fun f => readInstr_compareWith (.cpy f) f.source .y, fun _ _ => ⟨rfl, rfl, rfl⟩⟩

/-! ## INC and DEC (R146, R149) -/

/-- R53: a read of `ea` and then a write of it store one byte, whatever the read changed. -/
theorem storesOne_busRead_busWrite (ea : Addr) (v : Byte) (st : State) :
    StoresOne ea v (busRead ea st).2 st (busWrite ea v (busRead ea st).2) where
  memory addr hs := by
    rw [← busPeek_congr (st := st) (busRead_ram ea st) (busRead_prgRam ea st) (busRead_launch ea st) hs,
      ← busRead_launch ea st]
    exact busWrite_stores ea v (busRead ea st).2 addr (by rwa [busRead_launch])
  devices := ⟨rfl, rfl, rfl, rfl⟩
  plain hs := by
    rw [busRead_state_of_storage hs]
    exact busWrite_devices_of_storage hs

/-- R53: an instruction that modifies memory and writes no more than flags is one read and one write of `ea`. -/
theorem modifyInstr_frame {i : Instr} {m : MemOperand} {result : Byte → Byte} {effect : Byte → State → State}
    {flags : List Flag} {st t : State} (h : modifyInstr i.opcode m result effect st = .next t)
    (hstatus : ∀ b s, ∃ p, effect b s = s.setP p)
    (hflags : ∀ b s f, f ∉ flags → (effect b s).flag f = s.flag f) :
    StoresOne (resolve m st).ea (result (busPeek (resolve m st).ea st)) (busRead (resolve m st).ea st).2 st t ∧
      t.budget = st.launch.cycles i.opcode ∧ Keeps [.halted, .ppu, .apu, .pads] flags st t := by
  rw [modifyInstr_next] at h
  cases h
  generalize (resolve m st).ea = ea
  generalize busPeek ea st = old
  have one := storesOne_busRead_busWrite ea (result old) st
  have written := ((Keeps.refl [.halted, .ppu, .apu, .pads] flags st).busRead (by simp) (by simp) ea).busWrite
    (List.Subset.refl _) ea (result old)
  have hflag := hflags old (busWrite ea (result old) (busRead ea st).2)
  obtain ⟨p, hp⟩ := hstatus old (busWrite ea (result old) (busRead ea st).2)
  rw [hp] at hflag ⊢
  exact ⟨⟨one.memory.of_eq written.launch rfl rfl rfl, { one.devices with }, fun hs => { one.plain hs with }⟩, rfl,
    (written.setP fun f hf => (hflag f hf).trans (written.flag f hf)).setBudget _⟩

/-- R146, R149: the byte at `ea` becomes `result` of it, and Z and N describe the byte written. -/
theorem modifyInstr_setZN (i : Instr) (m : MemOperand) (result : Byte → Byte) (st : State) :
    ∃ t, modifyInstr i.opcode m result (fun b st => st.setZN (result b)) st = .next t ∧
      StoresOne (resolve m st).ea (result (busPeek (resolve m st).ea st)) (busRead (resolve m st).ea st).2 st t ∧
      ShowsZN (result (busPeek (resolve m st).ea st)) t ∧ t.budget = st.launch.cycles i.opcode ∧
      Keeps [.halted, .ppu, .apu, .pads] [.z, .n] st t := by
  have next := modifyInstr_next i.opcode m result (fun b st => st.setZN (result b)) st
  obtain ⟨one, budget, keeps⟩ := modifyInstr_frame (flags := [.z, .n]) next (fun _ _ => ⟨_, rfl⟩)
    (fun _ s _ hf => (Keeps.refl [] _ s).setZN (by simp) (by simp) _ |>.flag _ hf)
  exact ⟨_, next, one, showsZN_setZN _ _, budget, keeps⟩

/-- Settles O33: INC and DEC write back one more and one less, and the table entries are evaluated. -/
theorem incrementMemory : Obligations.IncrementMemory :=
  ⟨fun f => modifyInstr_setZN (.inc f) f.operand (· + 1), fun f => modifyInstr_setZN (.dec f) f.operand (· - 1),
    fun _ _ => ⟨rfl, rfl⟩⟩

/-! ## The register steps (R147, R148, R150, R151) -/

/-- R147, R148, R150, R151: a register moved to itself by a `step` that adds `k` modulo 256. -/
theorem impliedInstr_step {op : Byte} {n k : Nat} (hn : Launch.default.cycles op = n) (r : Register)
    {step : Byte → Byte} (hstep : ∀ b, (step b).toNat = (b.toNat + k) % 256) (st : State) :
    ∃ t, impliedInstr op (fun st => (st.setReg r (step (st.reg r))).setZN (step (st.reg r))) st = .next t ∧
      (t.reg r).toNat = ((st.reg r).toNat + k) % 256 ∧ ShowsZN (t.reg r) t ∧ Takes op n st t ∧
      Keeps [r.part] [.z, .n] st t ∧ KeepsMemory st t := by
  obtain ⟨t, next, hr, zn, rest⟩ := impliedInstr_move hn r (fun st => step (st.reg r)) st
  exact ⟨t, next, hr ▸ hstep _, hr ▸ zn, rest⟩

theorem toNat_sub_one (b : Byte) : (b - 1).toNat = (b.toNat + 255) % 256 := by
  rw [BitVec.toNat_sub, Nat.add_comm]
  rfl

/-- Settles O34: X and Y one higher or lower. -/
theorem incrementRegister : Obligations.IncrementRegister :=
  ⟨impliedInstr_step rfl .x fun b => BitVec.toNat_add b 1, impliedInstr_step rfl .y fun b => BitVec.toNat_add b 1,
    impliedInstr_step rfl .x toNat_sub_one, impliedInstr_step rfl .y toNat_sub_one, rfl⟩

end Sys2Proof.Machine
end

section
/-! PROOFS. The shifts (R160 to R164). A nine-bit word, an operand with C at one end, says what both shifts do: a
shift left is given the word with C on the right and a shift right the word with C on the left, and each splits it at
the other end into its result and the bit shifted out. The results in numbers and both round trips follow from that.
The four instructions are then one lemma for A and one for memory. -/

namespace Sys2Proof.Machine

/-! ## The nine-bit word -/

section
variable (m : Byte) (c : Bool)

/-- R161, R163: the bit shifted out and the result are the operand and the bit shifted in. -/
theorem cons_shiftLeft : BitVec.cons (m.getLsbD 7) (shiftLeft m c) = m.concat c := by
  refine BitVec.eq_of_getLsbD_eq fun i hi => ?_
  rw [BitVec.getLsbD_cons, BitVec.getLsbD_concat]
  by_cases h8 : i = 8
  · simp [h8]
  · have hlt : i < 8 := by omega
    by_cases h0 : i = 0
    · simp [shiftLeft, h0]
    · have hpred : i - 1 < 8 := by omega
      simp [shiftLeft, h8, h0, hlt, BitVec.getLsbD_eq_getElem hpred]

/-- R162, R164: the result and the bit shifted out are the bit shifted in and the operand. -/
theorem concat_shiftRight : (shiftRight m c).concat (m.getLsbD 0) = BitVec.cons c m := by
  refine BitVec.eq_of_getLsbD_eq fun i hi => ?_
  rw [BitVec.getLsbD_cons, BitVec.getLsbD_concat]
  by_cases h0 : i = 0
  · simp [h0]
  · by_cases h8 : i = 8
    · simp [shiftRight, h8]
    · have hlt : i - 1 < 7 := by omega
      have hsucc : 1 + (i - 1) = i := by omega
      simp [shiftRight, h8, h0, hlt, hsucc]

theorem toNat_shiftLeft : (shiftLeft m c).toNat = 2 * m.toNat % 256 + c.toNat := by
  have word := congrArg BitVec.toNat (cons_shiftLeft m c)
  rw [BitVec.toNat_cons', BitVec.toNat_concat, Nat.shiftLeft_eq] at word
  have hr := (shiftLeft m c).isLt
  have hc := c.toNat_le
  omega

theorem toNat_shiftRight : (shiftRight m c).toNat = m.toNat / 2 + 128 * c.toNat := by
  have word := congrArg BitVec.toNat (concat_shiftRight m c)
  rw [BitVec.toNat_cons', BitVec.toNat_concat, Nat.shiftLeft_eq] at word
  have hout := (m.getLsbD 0).toNat_le
  omega

end

/-! ## The two shapes -/

section
variable {operand : Option MemOperand} (result : Byte → Byte) (out : Byte → Bool) (st : State)

/-- R160: a shift of A writes A, C, Z and N alone. -/
theorem shiftInstr_acc_shifts {op : Byte} {n v : Nat} (hn : Launch.default.cycles op = n)
    (hv : (result st.a).toNat = v) :
    ∃ t, shiftInstr op none result out st = .next t ∧ t.a.toNat = v ∧ t.flag .c = out st.a ∧ ShowsZN t.a t ∧
      Takes op n st t ∧ Keeps [.a] [.c, .z, .n] st t ∧ KeepsMemory st t := by
  refine ⟨_, shiftInstr_acc op result out st, hv, by simp [State.setShiftFlags], showsZN_setZN _ _, ⟨rfl, hn⟩,
    ?keeps, .of_eq rfl rfl rfl⟩
  case keeps =>
    exact ((((Keeps.refl _ _ st).setA (by simp) _).setFlag (by simp) _).setZN (by simp) (by simp) _).setBudget _

/-- R160: a shift of memory writes the byte at the effective address, C, Z and N. -/
theorem shiftInstr_mem_shifts (i : Instr) {m : MemOperand} {v : Nat} (hm : operand = some m)
    (hv : (result (busPeek (resolve m st).ea st)).toNat = v) :
    ∃ t r, shiftInstr i.opcode operand result out st = .next t ∧ r.toNat = v ∧
      StoresOne (resolve m st).ea r (busRead (resolve m st).ea st).2 st t ∧
      t.flag .c = out (busPeek (resolve m st).ea st) ∧ ShowsZN r t ∧ t.budget = st.launch.cycles i.opcode ∧
      Keeps [.halted, .ppu, .apu, .pads] [.c, .z, .n] st t := by
  subst hm
  have next := modifyInstr_next i.opcode m result (fun b st => st.setShiftFlags (out b) (result b)) st
  obtain ⟨one, budget, keeps⟩ := modifyInstr_frame (flags := [.c, .z, .n]) next (fun _ _ => ⟨_, rfl⟩)
    (fun _ s _ hf => ((Keeps.refl [] _ s).setFlag (by simp) _).setZN (by simp) (by simp) _ |>.flag _ hf)
  exact ⟨_, _, next, hv, one, by simp [State.setShiftFlags], showsZN_setZN _ _, budget, keeps⟩

end

/-- Settles O35: each shifts A left or right, with 0 or C entering, and the encodings are evaluated. -/
theorem shiftAccumulator : Obligations.ShiftAccumulator :=
  ⟨fun st => shiftInstr_acc_shifts (shiftLeft · false) (·.getLsbD 7) st rfl (toNat_shiftLeft _ _),
    fun st => shiftInstr_acc_shifts (shiftRight · false) (·.getLsbD 0) st rfl (toNat_shiftRight _ _),
    fun st => shiftInstr_acc_shifts (shiftLeft · (st.flag .c)) (·.getLsbD 7) st rfl (toNat_shiftLeft _ _),
    fun st => shiftInstr_acc_shifts (shiftRight · (st.flag .c)) (·.getLsbD 0) st rfl (toNat_shiftRight _ _), rfl⟩

/-- Settles O36: each shifts the byte at the effective address, and the table entries are evaluated. -/
theorem shiftMemory : Obligations.ShiftMemory :=
  ⟨fun f _ st hm =>
    ⟨shiftInstr_mem_shifts (shiftLeft · false) (·.getLsbD 7) st (.asl f) hm (toNat_shiftLeft _ _),
      shiftInstr_mem_shifts (shiftRight · false) (·.getLsbD 0) st (.lsr f) hm (toNat_shiftRight _ _),
      shiftInstr_mem_shifts (shiftLeft · (st.flag .c)) (·.getLsbD 7) st (.rol f) hm (toNat_shiftLeft _ _),
      shiftInstr_mem_shifts (shiftRight · (st.flag .c)) (·.getLsbD 0) st (.ror f) hm (toNat_shiftRight _ _)⟩,
    fun _ _ => ⟨rfl, rfl, rfl, rfl⟩⟩

/-! ## Rotation (R163, R164) -/

theorem rotateLeft_rotateLeft {w : Nat} (hw : 0 < w) (x : BitVec w) (j k : Nat) :
    (x.rotateLeft j).rotateLeft k = x.rotateLeft (j + k) := by
  refine BitVec.eq_of_getMsbD_eq fun i _ => ?_
  simp [BitVec.getMsbD_rotateLeft, Nat.mod_lt _ hw, Nat.add_assoc]

theorem rotateLeft_zero {w : Nat} (x : BitVec w) : x.rotateLeft 0 = x := by
  refine BitVec.eq_of_getMsbD_eq fun i hi => ?_
  simp [BitVec.getMsbD_rotateLeft, hi, Nat.mod_eq_of_lt hi]

theorem rotateLeft_width {w : Nat} (x : BitVec w) : x.rotateLeft w = x := by
  rw [← BitVec.rotateLeft_mod_eq_rotateLeft, Nat.mod_self, rotateLeft_zero]

/-- Eight more rotations take one back. -/
theorem rotateLeft_one_inj {x y : BitVec 9} (h : x.rotateLeft 1 = y.rotateLeft 1) : x = y := by
  have nine := congrArg (BitVec.rotateLeft · 8) h
  rwa [rotateLeft_rotateLeft (by decide), rotateLeft_rotateLeft (by decide), rotateLeft_width, rotateLeft_width] at nine

/-- R163: a shift left through C is a rotation of C and the operand. -/
theorem rotateLeft_cons (m : Byte) (c : Bool) : (BitVec.cons c m).rotateLeft 1 = m.concat c := by
  refine BitVec.eq_of_getLsbD_eq fun i hi => ?_
  rw [BitVec.getLsbD_rotateLeft_of_le (by simp), BitVec.getLsbD_concat]
  by_cases h0 : i = 0
  · simp [h0, -BitVec.getLsbD_eq_getElem, BitVec.getLsbD_cons]
  · have hlt : i - 1 ≠ 8 := by omega
    simp [h0, hlt, hi, BitVec.getLsbD_cons]

/-- C and A as one word. -/
def State.carryWord (st : State) : BitVec 9 := BitVec.cons (st.flag .c) st.a

theorem State.carryWord_inj {st t : State} (h : t.carryWord = st.carryWord) :
    t.a = st.a ∧ t.flag .c = st.flag .c := by
  constructor
  · simpa [State.carryWord, BitVec.setWidth_cons] using congrArg (BitVec.setWidth 8) h
  · simpa [State.carryWord] using congrArg BitVec.msb h

/-- R163: ROL A rotates the word of C and A to the left. -/
theorem exec_rol_acc (st : State) :
    ∃ t, exec (.rol .acc) st = .next t ∧ t.carryWord = st.carryWord.rotateLeft 1 := by
  obtain ⟨t, next, ha, hc, -⟩ :=
    shiftInstr_acc_shifts (op := 0x2A) (shiftLeft · (st.flag .c)) (·.getLsbD 7) st rfl rfl
  refine ⟨t, next, ?_⟩
  rw [State.carryWord, State.carryWord, BitVec.eq_of_toNat_eq ha, hc, cons_shiftLeft, rotateLeft_cons]

/-- R164: ROR A rotates the word of C and A to the right: a rotation to the left takes it back. -/
theorem exec_ror_acc (st : State) :
    ∃ t, exec (.ror .acc) st = .next t ∧ t.carryWord.rotateLeft 1 = st.carryWord := by
  obtain ⟨t, next, ha, hc, -⟩ :=
    shiftInstr_acc_shifts (op := 0x6A) (shiftRight · (st.flag .c)) (·.getLsbD 0) st rfl rfl
  refine ⟨t, next, ?_⟩
  rw [State.carryWord, State.carryWord, BitVec.eq_of_toNat_eq ha, hc, rotateLeft_cons, concat_shiftRight]

/-- R163: each ROL A of a run rotates the word once more. -/
theorem carryWord_of_rols {n : Nat} {s : Nat → State}
    (hs : ∀ k, k < n → exec (.rol .acc) (s k) = .next (s (k + 1))) :
    (s n).carryWord = (s 0).carryWord.rotateLeft n := by
  induction n with
  | zero => rw [rotateLeft_zero]
  | succ n ih =>
    obtain ⟨t, next, hw⟩ := exec_rol_acc (s n)
    cases next.symm.trans (hs n (Nat.lt_succ_self n))
    rw [hw, ih fun k hk => hs k (Nat.lt_succ_of_lt hk), rotateLeft_rotateLeft (by decide)]

/-- Settles O47: nine rotations of the nine-bit word are none, and ROR takes back the one that ROL made. -/
theorem rotateRoundTrips : Obligations.RotateRoundTrips := by
  refine ⟨fun s hs => ?nine, fun st => ?back⟩
  case nine => exact State.carryWord_inj ((carryWord_of_rols hs).trans (rotateLeft_width _))
  case back =>
    obtain ⟨u, hu, hrol⟩ := exec_rol_acc st
    obtain ⟨t, ht, hror⟩ := exec_ror_acc u
    exact ⟨u, t, hu, ht, State.carryWord_inj (rotateLeft_one_inj (hror.trans hrol))⟩

end Sys2Proof.Machine
end

section
/-! PROOFS. Control flow (R170 to R184). A word pushed is two bytes stored, and where those bytes stand a pull gives the
word back: JSR, RTS and their round trip follow. JMP is a pointer read (R84), BRK and RTI are the laws of trap entry and
return, and the eight branches are one lemma about the shape, over the condition. -/

namespace Sys2Proof.Machine

/-! ## Frames: PC and the stack -/

section
variable {written : List Part} {flags : List Flag} {st t : State} (k : Keeps written flags st t)
include k

theorem Keeps.setPc (h : .pc ∈ written) (v : Addr) : Keeps written flags st (t.setPc v) := { k with pc := absurd h }

theorem Keeps.push16 (h : .s ∈ written) (w : Addr) : Keeps written flags st (Machine.push16 w t) := by
  rw [push16_eq]
  exact (k.setRam _).setS h _

/-- R84, R50: reading a pointer has at most the side effects of two reads. -/
theorem Keeps.readIndirect (hppu : .ppu ∈ written) (hpads : .pads ∈ written) (ptr : Addr) :
    Keeps written flags st (Machine.readIndirect ptr t).2 :=
  (k.busRead hppu hpads _).busRead hppu hpads _

end

/-- A frame that leaves PC and S open is closed where both are as before. -/
theorem Keeps.of_restored {flags : List Flag} {st t : State} (k : Keeps [.pc, .s] flags st t) (hpc : t.pc = st.pc)
    (hs : t.s = st.s) : Keeps [] flags st t :=
  { k with
    a := fun _ => k.a (by decide)
    x := fun _ => k.x (by decide)
    y := fun _ => k.y (by decide)
    halted := fun _ => k.halted (by decide)
    ppu := fun _ => k.ppu (by decide)
    apu := fun _ => k.apu (by decide)
    pads := fun _ => k.pads (by decide)
    pc := fun _ => hpc
    s := fun _ => hs }

/-! ## A word on the stack (R15, R16, R41) -/

/-- R11, R15: S differs at two pushes in a row. -/
theorem ne_sub_one (s : Byte) : s ≠ s - 1 := by bv_omega

/-- R11, R15: S at a third push differs from both before it. -/
theorem ne_sub_two (s : Byte) : s ≠ s - 2 ∧ s - 1 ≠ s - 2 := by bv_omega

theorem push16_s (w : Addr) (st : State) : (push16 w st).s = st.s - 2 := by rw [push16_eq]; rfl

/-- R41: the high byte is stored first, at S, and the low byte below it. -/
theorem push16_stores (w : Addr) (st : State) :
    StoresBytes [(stackAddr st.s, hi8 w), (stackAddr (st.s - 1), lo8 w)] st (push16 w st) := by
  rw [push16_eq]
  exact .two _ _ (ne_sub_one _) rfl rfl rfl

/-- R16: the low byte is the first above S, the high byte the second. -/
theorem pull16_eq_busPeek (st : State) :
    pull16 st = (word (busPeek (stackAddr (st.s + 2)) st) (busPeek (stackAddr (st.s + 1)) st), st.setS (st.s + 2)) := by
  simp [pull16_eq, busPeek]

/-- R15, R16: where the two bytes of `w` were pushed, a pull gives `w` and takes S back. -/
theorem pull16_of_stores {w : Addr} {st t : State} (hs : t.s = st.s - 2)
    (stores : StoresBytes [(stackAddr st.s, hi8 w), (stackAddr (st.s - 1), lo8 w)] st t) :
    pull16 t = (w, t.setS st.s) := by
  have hne := stack_ne (ne_sub_one st.s)
  have high : busPeek (stackAddr st.s) t = hi8 w := by
    simpa [Target.isWritable] using stores (stackAddr st.s) (by simp [Target.isStorage])
  have low : busPeek (stackAddr (st.s - 1)) t = lo8 w := by
    have h := stores (stackAddr (st.s - 1)) (by simp [Target.isStorage])
    simpa only [List.find?_cons, route_stackAddr, Target.isWritable, Target.ram.injEq, hne, decide_false,
      decide_true, Bool.false_and, Bool.and_true] using h
  have hhi : st.s - 2 + 2 = st.s := BitVec.sub_add_cancel _ _
  have hlo : st.s - 2 + 1 = st.s - 1 := by bv_omega
  rw [pull16_eq_busPeek, hs, hhi, hlo, high, low, word_hi8_lo8]

/-! ## JMP (R170, R84) -/

theorem toNat_lo8 (w : Addr) : (lo8 w).toNat = w.toNat % 256 := by
  simp [lo8]

/-- R8: the first address of a page. -/
theorem and_page_mask (w : Addr) : w &&& 0xFF00 = word (hi8 w) 0 :=
  calc w &&& 0xFF00 = word (hi8 w) (lo8 w) &&& word 0xFF 0 := by rw [word_hi8_lo8]; rfl
    _ = word (hi8 w &&& 0xFF) (lo8 w &&& 0) := BitVec.and_append
    _ = word (hi8 w) 0 := congrArg₂ word BitVec.and_allOnes BitVec.and_zero

/-- R84: the address of the pointer's high byte is the next one, but wraps within the pointer's page. -/
theorem word_hi8_lo8_add_one (w : Addr) :
    word (hi8 w) (lo8 w + 1) = if w.toNat % 256 = 255 then w &&& 0xFF00 else w + 1 := by
  have hw := w.isLt
  split
  · rw [and_page_mask]
    refine congrArg _ (BitVec.eq_of_toNat_eq ?_)
    rw [BitVec.toNat_add, toNat_lo8, ‹w.toNat % 256 = 255›]
    rfl
  · refine BitVec.eq_of_toNat_eq ?_
    simp only [toNat_word, toNat_hi8, toNat_lo8, BitVec.toNat_add, BitVec.ofNat_eq_ofNat, BitVec.toNat_ofNat]
    omega

/-- R84: the two reads of a pointer, `high` the address of the second. -/
theorem readIndirect_eq {w high : Addr} (h : high = if w.toNat % 256 = 255 then w &&& 0xFF00 else w + 1) (st : State) :
    readIndirect w st =
      (word (busRead high (busRead w st).2).1 (busRead w st).1, (busRead high (busRead w st).2).2) := by
  rw [readIndirect, word_hi8_lo8_add_one, ← h]

theorem exec_jmp_ind_next (w : Addr) (st : State) :
    exec (.jmp (.ind w)) st =
      .next (((readIndirect w st).2.setPc (readIndirect w st).1).setBudget (st.launch.cycles 0x6C)) := rfl

/-- Settles O37: an absolute target is the operand; an indirect one is what the pointer reads as. -/
theorem jump : Obligations.Jump := by
  refine ⟨fun w st => ⟨_, exec_jmp_abs w st, rfl, ⟨rfl, rfl⟩, ((Keeps.refl _ _ st).setPc (by simp) _).setBudget _,
    .of_eq rfl rfl rfl⟩, fun w high st hhigh => ?indirect, fun _ => ⟨rfl, rfl⟩⟩
  have read := readIndirect_eq hhigh st
  have keeps := (Keeps.refl [.pc, .ppu, .pads] [] st).readIndirect (by simp) (by simp) w
  refine ⟨_, exec_jmp_ind_next w st, congrArg Prod.fst read, ⟨rfl, rfl⟩, congrArg (·.2.ppu) read,
    congrArg (·.2.pads) read, (keeps.setPc (by simp) _).setBudget _, .of_eq ?ram ?prgRam keeps.launch⟩
  case ram => simp [read]
  case prgRam => simp [read]

/-! ## JSR and RTS (R171, R172, R184) -/

theorem exec_jsr_next (w : Addr) (st : State) :
    exec (.jsr w) st = .next (((push16 (st.pc - 1) st).setPc w).setBudget (st.launch.cycles 0x20)) := rfl

theorem exec_rts_next (st : State) :
    exec .rts st = .next (((pull16 st).2.setPc ((pull16 st).1 + 1)).setBudget (st.launch.cycles 0x60)) := rfl

/-- Settles O38: JSR pushes the word `PC - 1` and jumps. -/
theorem jumpToSubroutine : Obligations.JumpToSubroutine := by
  intro w st
  have keeps := (Keeps.refl [.pc, .s] [] st).push16 (by simp) (st.pc - 1)
  exact ⟨_, exec_jsr_next w st, rfl, push16_s _ st, ⟨rfl, rfl⟩, (push16_stores _ st).of_eq keeps.launch rfl rfl rfl,
    (keeps.setPc (by simp) _).setBudget _, rfl⟩

/-- Settles O39: RTS changes S and PC alone. -/
theorem returnFromSubroutine : Obligations.ReturnFromSubroutine := by
  intro st
  have next := exec_rts_next st
  rw [pull16_eq_busPeek] at next
  exact ⟨_, next, rfl, rfl, ⟨rfl, rfl⟩, (((Keeps.refl _ _ st).setS (by simp) _).setPc (by simp) _).setBudget _,
    .of_eq rfl rfl rfl, rfl⟩

/-- Settles O45: RTS pulls the word that JSR pushed, `PC - 1`, and adds the 1 again. -/
theorem subroutineRoundTrip : Obligations.SubroutineRoundTrip := by
  intro w st
  obtain ⟨u, call, -, hs, -, stores, keeps, -⟩ := jumpToSubroutine w st
  have next := exec_rts_next u
  rw [pull16_of_stores hs stores] at next
  have returned := ((keeps.setS (by simp) st.s).setPc (by simp) (st.pc - 1 + 1)).setBudget (u.launch.cycles 0x60)
  exact ⟨u, _, call, next, returned.of_restored (BitVec.sub_add_cancel _ _) rfl, stores.of_eq keeps.launch rfl rfl rfl⟩

/-! ## BRK and RTI (R173, R174) -/

/-- R173, R216: BRK enters the trap from PC + 1, through the IRQ vector. -/
theorem exec_brk_next (st : State) :
    exec .brk st = .next ((((((st.setPc (st.pc + 1)).setRam (((st.ram.write (256 + st.s.toNat) (hi8 (st.pc + 1))).write
      (256 + (st.s - 1).toNat) (lo8 (st.pc + 1))).write (256 + (st.s - 2).toNat) (entryStatus st.p true ||| 0x20))).setS
      (st.s - 3)).setP (entryStatus st.p true)).setPc (word (busPeek 0xFFFF st) (busPeek 0xFFFE st))).setBudget
      (st.launch.cycles 0x00)) := by
  have low : busPeek Config.irqVector (st.setPc (st.pc + 1)) = busPeek 0xFFFE st := busPeek_high (by decide) rfl
  have high : busPeek (Config.irqVector + 1) (st.setPc (st.pc + 1)) = busPeek 0xFFFF st := busPeek_high (by decide) rfl
  rw [exec_brk, impliedInstr_next, trapEntry_eq _ _ (by decide) (by decide), low, high]
  rfl

/-- Settles O40: three stack bytes are stored, and B and I are the flags entry writes. (`break` is a word of Lean.) -/
theorem break_holds : Obligations.Break := by
  intro st
  obtain ⟨hsub, hsub'⟩ := ne_sub_two st.s
  refine ⟨_, entryStatus st.p true ||| 0x20, exec_brk_next st, rfl, rfl, ⟨rfl, rfl⟩, by simp, by simp, fun f => ?pushed,
    .three _ _ _ (ne_sub_one _) hsub hsub' rfl rfl rfl, ?keeps, rfl⟩
  case pushed => cases f <;> simp [State.flag]
  case keeps =>
    have hp : ∀ f, f ∉ [Flag.b, .i] → flagOf (entryStatus st.p true) f = st.flag f := by
      intro f hf
      simp_all [State.flag]
    exact ((((((Keeps.refl _ _ st).setPc (by simp) _).setRam _).setS (by simp) _).setP hp).setPc (by simp) _).setBudget _

/-- R174: RTI takes P from the first byte above S and PC from the next two. -/
theorem exec_rti_next (st : State) :
    exec .rti st = .next ((((st.setS (st.s + 3)).setP (pulledStatus st.p (busPeek (stackAddr (st.s + 1)) st))).setPc
      (word (busPeek (stackAddr (st.s + 3)) st) (busPeek (stackAddr (st.s + 2)) st))).setBudget
      (st.launch.cycles 0x40)) := by
  simp [exec_rti, impliedInstr_next, returnFromTrap_eq, busPeek]

/-- R123, R174: P pulled keeps B. -/
theorem Keeps.setP_pulledStatus {written : List Part} {st t : State}
    (k : Keeps written [.c, .z, .i, .d, .v, .n, .u] st t) (m : Byte) :
    Keeps written [.c, .z, .i, .d, .v, .n, .u] st (t.setP (pulledStatus st.p m)) :=
  k.setP fun f hf => by
    obtain rfl : f = .b := by cases f <;> simp_all
    simp [State.flag]

/-- Settles O41: P, but for B, and PC take the bytes pulled; memory is not written. -/
theorem returnFromInterrupt : Obligations.ReturnFromInterrupt := by
  refine fun st => ⟨_, exec_rti_next st, rfl, rfl, rfl, ⟨rfl, rfl⟩, ?b, ?u, ?keeps, .of_eq rfl rfl rfl, rfl⟩
  case b => simp [State.flag]
  case u => simp
  case keeps =>
    exact ((((Keeps.refl _ _ st).setS (by simp) _).setP_pulledStatus _).setPc (by simp) _).setBudget _

/-! ## Branches (R175 to R183) -/

/-- R80, R8: PC and the signed offset, modulo 65536. -/
theorem branchTarget_eq (pc : Addr) (t : Byte) : branchTarget pc t = BitVec.ofInt 16 (pc.toNat + t.toInt) := by
  rw [branchTarget, sext16, BitVec.signExtend, BitVec.ofInt_add, BitVec.ofInt_natCast, BitVec.ofNat_toNat,
    BitVec.setWidth_eq]

/-- R90: two addresses lie in one page where their high bytes agree. -/
theorem hi8_eq_iff (v w : Addr) : hi8 v = hi8 w ↔ v.toNat / 256 = w.toNat / 256 := by
  rw [← BitVec.toNat_inj, toNat_hi8, toNat_hi8]

/-- R175: an instruction of the shape of a branch moves PC where its condition holds, and pays for that. -/
theorem exec_branch {i : Instr} {taken : Bool} {offset : Byte} {st : State}
    (h : exec i st = branchInstr i.opcode taken offset st) (hn : Launch.default.cycles i.opcode = 2) :
    ∃ t, exec i st = .next t ∧
      (taken = true →
        t.pc = BitVec.ofInt 16 (st.pc.toNat + offset.toInt) ∧
        t.budget = st.launch.cycles i.opcode + if t.pc.toNat / 256 = st.pc.toNat / 256 then 1 else 2) ∧
      (taken = false → t.pc = st.pc ∧ t.budget = st.launch.cycles i.opcode) ∧
      Launch.default.cycles i.opcode = 2 ∧ Keeps [.pc] [] st t ∧ KeepsMemory st t := by
  cases taken with
  | true =>
    refine ⟨_, h.trans (branchInstr_taken _ _ _), fun _ => ⟨branchTarget_eq _ _, ?budget⟩, nofun, hn,
      ((Keeps.refl _ _ st).setPc (by simp) _).setBudget _, .of_eq rfl rfl rfl⟩
    case budget => simp only [State.setBudget_budget, hi8_eq_iff]; rfl
  | false =>
    exact ⟨_, h.trans (branchInstr_untaken _ _ _), nofun, fun _ => ⟨rfl, rfl⟩, hn,
      (Keeps.refl _ _ st).setBudget _, .of_eq rfl rfl rfl⟩

/-- Settles O42: each of the eight has the shape of a branch. -/
theorem branches : Obligations.Branches := by
  refine ⟨fun offset st i taken h => ?shape, fun _ => rfl⟩
  simp only [List.mem_cons, List.not_mem_nil, or_false, Prod.mk.injEq] at h
  rcases h with ⟨rfl, rfl⟩ | ⟨rfl, rfl⟩ | ⟨rfl, rfl⟩ | ⟨rfl, rfl⟩ | ⟨rfl, rfl⟩ | ⟨rfl, rfl⟩ | ⟨rfl, rfl⟩ | ⟨rfl, rfl⟩ <;>
    exact exec_branch rfl rfl

end Sys2Proof.Machine
end

section
/-! PROOFS. The flag instructions, NOP and XXX (R190 to R199). A flag instruction is one lemma about an implied
instruction that writes a flag. NOP and XXX write nothing: an XXX of mode IND is the pointer read of JMP (R84). -/

namespace Sys2Proof.Machine

/-! ## Flag instructions (R190 to R196) -/

/-- R190 to R196: an instruction whose effect is to write one flag writes nothing else but the budget. -/
theorem exec_writesFlag {i : Instr} {f : Flag} {b : Bool} {st : State}
    (h : exec i st = impliedInstr i.opcode (fun st => st.setFlag f b) st) (hn : Launch.default.cycles i.opcode = 2) :
    ∃ t, exec i st = .next t ∧ t.flag f = b ∧ Takes i.opcode 2 st t ∧ Keeps [] [f] st t ∧ KeepsMemory st t :=
  ⟨_, h.trans (impliedInstr_next _ _ _), (State.flag_setFlag st f f b).trans (if_pos rfl), ⟨rfl, hn⟩,
    ((Keeps.refl _ _ st).setFlag (List.mem_singleton_self f) b).setBudget _, .of_eq rfl rfl rfl⟩

/-- Settles O43: each of the seven writes its flag, and the encodings are evaluated. -/
theorem flagInstructions : Obligations.FlagInstructions := by
  refine ⟨fun st i f b h => ?writes, rfl⟩
  simp only [List.mem_cons, List.not_mem_nil, or_false, Prod.mk.injEq] at h
  rcases h with ⟨rfl, rfl, rfl⟩ | ⟨rfl, rfl, rfl⟩ | ⟨rfl, rfl, rfl⟩ | ⟨rfl, rfl, rfl⟩ | ⟨rfl, rfl, rfl⟩ |
      ⟨rfl, rfl, rfl⟩ | ⟨rfl, rfl, rfl⟩
  · exact exec_writesFlag (exec_clc st) rfl
  · exact exec_writesFlag (exec_cld st) rfl
  · exact exec_writesFlag (exec_cli st) rfl
  · exact exec_writesFlag (exec_clv st) rfl
  · exact exec_writesFlag (exec_sec st) rfl
  · exact exec_writesFlag (exec_sed st) rfl
  · exact exec_writesFlag (exec_sei st) rfl

/-! ## NOP and XXX (R198, R199) -/

/-- Settles O44: only an XXX of mode IND reads; every other one, and NOP, leaves the state with its budget. -/
theorem noOperations : Obligations.NoOperations := by
  refine ⟨fun st => (exec_nop st).trans (impliedInstr_next _ _ st), rfl, rfl, fun op _ st hf => exec_xxx op hf st,
    fun op w high st hhigh => ?indirect⟩
  case indirect => rw [exec_xxx_ind, readIndirect_eq hhigh]

end Sys2Proof.Machine
end

section
/-! PROOFS. Exceptions and the cycle engine (R210 to R223). One relation says what the entry of a trap leaves, whether
an interrupt or BRK makes it: both services of an interrupt and every RTI right after an entry are read off it. -/

namespace Sys2Proof.Machine

/-! ## Entering a trap (R213, R173) -/

/-- R213, R173: what the entry of a trap from `st` leaves: PC from `vector`, S three lower, B and I written in P, and
PC and P on the stack. -/
structure Entered (b : Bool) (vector : Addr) (st u : State) : Prop where
  pc : u.pc = word (busPeek (vector + 1) st) (busPeek vector st)
  s : u.s = st.s - 3
  p : u.p = entryStatus st.p b
  stores : StoresBytes [(stackAddr st.s, hi8 st.pc), (stackAddr (st.s - 1), lo8 st.pc),
    (stackAddr (st.s - 2), entryStatus st.p b ||| 0x20)] st u
  keeps : Keeps [.pc, .s] [.i, .b] st u

/-- R213, R47: each of the two vectors lies in ROM with both its bytes. -/
theorem vector_high {vector : Addr} (h : vector = Config.nmiVector ∨ vector = Config.irqVector) :
    0x8000 ≤ vector.toNat ∧ 0x8000 ≤ (vector + 1).toNat := by
  rcases h with rfl | rfl <;> decide

theorem entered_trapEntry (b : Bool) {vector : Addr} (h : vector = Config.nmiVector ∨ vector = Config.irqVector)
    (st : State) : Entered b vector st (trapEntry b vector st) := by
  obtain ⟨low, high⟩ := vector_high h
  obtain ⟨hsub, hsub'⟩ := ne_sub_two st.s
  have hp : ∀ f, f ∉ [Flag.i, .b] → flagOf (entryStatus st.p b) f = st.flag f := by
    intro f hf
    simp_all [State.flag]
  rw [trapEntry_eq b st low high]
  exact ⟨rfl, rfl, rfl, .three _ _ _ (ne_sub_one _) hsub hsub' rfl rfl rfl,
    ((((Keeps.refl _ _ st).setRam _).setS (by simp) _).setP hp).setPc (by simp) _⟩

theorem Entered.setBudget {b : Bool} {vector : Addr} {st u : State} (e : Entered b vector st u) (n : Nat) :
    Entered b vector st (u.setBudget n) :=
  { e with stores := e.stores.of_eq e.keeps.launch rfl rfl rfl, keeps := e.keeps.setBudget n }

/-! ## RTI right after an entry (R174, R223) -/

/-- R15: three bytes stored at three stack addresses are what these read as. -/
theorem StoresBytes.busPeek_three {a b c v w x : Byte} {st t : State} (hab : a ≠ b) (hac : a ≠ c) (hbc : b ≠ c)
    (stores : StoresBytes [(stackAddr a, v), (stackAddr b, w), (stackAddr c, x)] st t) :
    busPeek (stackAddr a) t = v ∧ busPeek (stackAddr b) t = w ∧ busPeek (stackAddr c) t = x := by
  have storage (s : Byte) : (route st.launch.cart (stackAddr s)).isStorage = true := by simp [Target.isStorage]
  refine ⟨(stores _ (storage a)).trans ?_, (stores _ (storage b)).trans ?_, (stores _ (storage c)).trans ?_⟩ <;>
    simp [Target.isWritable, BitVec.toNat_inj, hab, hac, hbc]

/-- R174: RTI pulls back what the entry pushed. -/
theorem Entered.exec_rti {b : Bool} {vector : Addr} {st u : State} (e : Entered b vector st u) :
    exec .rti u = .next ((((u.setS st.s).setP (pulledStatus (entryStatus st.p b) (entryStatus st.p b ||| 0x20))).setPc
      st.pc).setBudget (u.launch.cycles 0x40)) := by
  obtain ⟨hsub, hsub'⟩ := ne_sub_two st.s
  obtain ⟨high, low, status⟩ := e.stores.busPeek_three (ne_sub_one _) hsub hsub'
  have h1 : st.s - 3 + 1 = st.s - 2 := by bv_omega
  have h2 : st.s - 3 + 2 = st.s - 1 := by bv_omega
  have h3 : st.s - 3 + 3 = st.s := BitVec.sub_add_cancel _ _
  rw [exec_rti_next, e.s, e.p, h1, h2, h3, high, low, status, word_hi8_lo8]

/-- R213, R174, R223: an RTI right after an entry restores all but I, which it sets, and B, which the entry wrote. -/
theorem Entered.rti_restores {b : Bool} {vector : Addr} {st u : State} (e : Entered b vector st u)
    (hu : st.flag .u = true) :
    ∃ t, exec .rti u = .next t ∧ t.flag .i = true ∧ t.flag .b = b ∧ Keeps [] [.i, .b] st t := by
  refine ⟨_, e.exec_rti, by simp, by simp, ?keeps⟩
  have hp : ∀ f, f ∉ [Flag.i, .b] →
      flagOf (pulledStatus (entryStatus st.p b) (entryStatus st.p b ||| 0x20)) f = st.flag f := by
    intro f hf
    by_cases hfu : f = .u
    · simp [hfu, hu]
    · simp_all [State.flag]
  exact ((((e.keeps.setS (by simp) _).setP hp).setPc (by simp) _).setBudget _).of_restored rfl rfl

theorem Keeps.of_setPc {flags : List Flag} {w : Addr} {st t : State} (k : Keeps [] flags (st.setPc w) t) :
    Keeps [.pc] flags st t :=
  { k with
    a := fun _ => k.a (by simp)
    x := fun _ => k.x (by simp)
    y := fun _ => k.y (by simp)
    s := fun _ => k.s (by simp)
    halted := fun _ => k.halted (by simp)
    ppu := fun _ => k.ppu (by simp)
    apu := fun _ => k.apu (by simp)
    pads := fun _ => k.pads (by simp)
    pc := absurd (by simp) }

/-- Settles O46: BRK is an entry as an interrupt's is, from PC + 1 and with B set. -/
theorem trapRoundTrip : Obligations.TrapRoundTrip := by
  refine ⟨fun st vector hv hu => (entered_trapEntry false hv st).rti_restores hu, fun st hu => ?brk⟩
  have entry := (entered_trapEntry true (.inr rfl) (st.setPc (st.pc + 1))).setBudget (st.launch.cycles 0x00)
  obtain ⟨t, next, hi, hb, keeps⟩ := entry.rti_restores hu
  exact ⟨_, t, impliedInstr_next _ _ _, next, keeps.pc (by simp), hi, hb, keeps.of_setPc⟩

/-! ## Servicing an interrupt (R211, R214, R215) -/

/-- R26, R28, R29: the latches, marks and counts that the cycle engine writes around an entry. -/
structure Engine where
  nmi : Bool
  irq : Bool
  didNmi : Bool
  didIrq : Bool
  budget : Nat
  cycles : BitVec 64

/-- `st` with the latches, marks and counts of `g`. -/
def State.withEngine (st : State) (g : Engine) : State :=
  { st with
    nmiPending := g.nmi, irqPending := g.irq, didNmi := g.didNmi, didIrq := g.didIrq, budget := g.budget
    cycleCount := g.cycles }

section
variable (st : State) (g : Engine)

@[simp] theorem State.withEngine_setDidNmi (v : Bool) :
    (st.withEngine g).setDidNmi v = st.withEngine { g with didNmi := v } := rfl
@[simp] theorem State.withEngine_setDidIrq (v : Bool) :
    (st.withEngine g).setDidIrq v = st.withEngine { g with didIrq := v } := rfl
@[simp] theorem State.withEngine_setBudget (v : Nat) :
    (st.withEngine g).setBudget v = st.withEngine { g with budget := v } := rfl
@[simp] theorem retireCycle_withEngine :
    retireCycle (st.withEngine g) = st.withEngine { g with budget := g.budget - 1, cycles := g.cycles + 1 } := rfl

end

/-- R213: an entry neither reads nor writes what the engine writes. -/
theorem trapEntry_withEngine (b : Bool) {vector : Addr} (h : vector = Config.nmiVector ∨ vector = Config.irqVector)
    (st : State) (g : Engine) : trapEntry b vector (st.withEngine g) = (trapEntry b vector st).withEngine g := by
  obtain ⟨low, high⟩ := vector_high h
  have peek {addr : Addr} (ha : 0x8000 ≤ addr.toNat) : busPeek addr (st.withEngine g) = busPeek addr st :=
    busPeek_high ha rfl
  rw [trapEntry_eq b _ low high, trapEntry_eq b _ low high, peek low, peek high]
  rfl

section
variable {st : State} (hh : st.halted = false) (hbudget : st.budget = 0)
include hh hbudget

/-- R211, R214: the CPU cycle at a boundary with an NMI pending. -/
theorem cpuCycle_of_nmi (hn : st.nmiPending = true) :
    cpuCycle st = .next ((trapEntry false Config.nmiVector st).withEngine
      { nmi := false, irq := st.irqPending, didNmi := true, didIrq := false, budget := 7,
        cycles := st.cycleCount + 1 }) := by
  have before : ((st.setDidNmi false).setDidIrq false).setNmiPending false =
      st.withEngine
        { nmi := false, irq := st.irqPending, didNmi := false, didIrq := false, budget := st.budget,
          cycles := st.cycleCount } := rfl
  simp [cpuCycle, hh, hbudget, boundaryAction, hn, mapNext, serviceNmi, before, trapEntry_withEngine,
    Config.nmiBudget]

/-- R211, R215: the CPU cycle at a boundary with an IRQ to service. -/
theorem cpuCycle_of_irq (hn : st.nmiPending = false) (hq : st.irqPending = true) (hi : st.flag .i = false) :
    cpuCycle st = .next ((trapEntry false Config.irqVector st).withEngine
      { nmi := false, irq := false, didNmi := false, didIrq := true, budget := 6, cycles := st.cycleCount + 1 }) := by
  have before : ((st.setDidNmi false).setDidIrq false).setIrqPending false =
      st.withEngine
        { nmi := st.nmiPending, irq := false, didNmi := false, didIrq := false, budget := st.budget,
          cycles := st.cycleCount } := rfl
  simp [cpuCycle, hh, hbudget, boundaryAction, hn, hq, hi, mapNext, serviceIrq, before, trapEntry_withEngine,
    Config.irqBudget]

end

/-- R47: the addresses of the vectors' high bytes. -/
theorem nmiVector_add_one : Config.nmiVector + 1 = 0xFFFB := rfl
theorem irqVector_add_one : Config.irqVector + 1 = 0xFFFF := rfl

/-- R213: P after the entry of an interrupt. -/
theorem flagOf_interruptStatus (p : Byte) (f : Flag) :
    flagOf (entryStatus p false) f = (f != .b && (f == .i || flagOf p f)) := by
  cases f <;> simp <;> rfl

/-- R213, R18: the P that the entry of an interrupt pushes. -/
theorem flagOf_pushedByInterrupt (p : Byte) (f : Flag) :
    flagOf (entryStatus p false ||| 0x20) f = (f != .b && (f == .i || f == .u || flagOf p f)) := by
  cases f <;> simp <;> rfl

/-- R213: what the entry of an interrupt leaves beside PC and S, whatever the engine writes around it. -/
theorem Entered.interrupt_frame {vector : Addr} {st u : State} (e : Entered false vector st u)
    (hh : st.halted = false) (g : Engine) :
    (∀ f, (u.withEngine g).flag f = (f != .b && (f == .i || st.flag f))) ∧
    (∀ f, flagOf (entryStatus st.p false ||| 0x20) f = (f != .b && (f == .i || f == .u || st.flag f))) ∧
    StoresBytes [(stackAddr st.s, hi8 st.pc), (stackAddr (st.s - 1), lo8 st.pc),
      (stackAddr (st.s - 2), entryStatus st.p false ||| 0x20)] st (u.withEngine g) ∧
    (u.withEngine g).a = st.a ∧ (u.withEngine g).x = st.x ∧ (u.withEngine g).y = st.y ∧
    (u.withEngine g).halted = false ∧ (u.withEngine g).launch = st.launch ∧ SameDevices st (u.withEngine g) := by
  obtain ⟨-, -, p, stores, keeps⟩ := e
  have halted : u.halted = st.halted := keeps.halted (by simp)
  exact ⟨fun f => (congrArg (flagOf · f) p).trans (flagOf_interruptStatus st.p f), flagOf_pushedByInterrupt st.p,
    stores.of_eq keeps.launch rfl rfl rfl, keeps.a (by simp), keeps.x (by simp), keeps.y (by simp), halted.trans hh,
    keeps.launch, ⟨keeps.ppu (by simp), keeps.apu (by simp), keeps.pads (by simp), halted⟩⟩

/-- Settles O48: the cycle is an entry through the NMI vector, with the latch, the marks and the counts. -/
theorem nmiService : Obligations.NmiService := by
  intro st hh hbudget hn
  have e := entered_trapEntry false (.inl rfl) st
  have pc := e.pc
  rw [nmiVector_add_one] at pc
  exact ⟨_, _, cpuCycle_of_nmi hh hbudget hn, pc, e.s, rfl, rfl, rfl, rfl, rfl, rfl, e.interrupt_frame hh _⟩

/-- Settles O49: the cycle is an entry through the IRQ vector, with the latch, the marks and the counts. -/
theorem irqService : Obligations.IrqService := by
  intro st hh hbudget hn hq hi
  have e := entered_trapEntry false (.inr rfl) st
  have pc := e.pc
  rw [irqVector_add_one] at pc
  exact ⟨_, _, cpuCycle_of_irq hh hbudget hn hq hi, pc, e.s, rfl, rfl, rfl, rfl, rfl, rfl, e.interrupt_frame hh _⟩

/-! ## The cycle engine (R210, R211, R220) -/

/-- Settles O7: an instruction and a step each answer a next state. -/
theorem nothingStops : Obligations.NothingStops := by
  refine ⟨fun i st => ?exec, fun st => ?step⟩
  case exec =>
    obtain ⟨t, next, -⟩ := exec_answers i st
    exact ⟨t, next⟩
  case step =>
    obtain ⟨t, next, -⟩ := step_answers st
    exact ⟨t, next⟩

/-- R220: a halted CPU cycle changes nothing. -/
theorem cpuCycle_of_halted {st : State} (hh : st.halted = true) : cpuCycle st = .next st := by
  simp [cpuCycle, hh]

/-- R211: a cycle inside a budget only counts. -/
theorem cpuCycle_of_budget {st : State} (hh : st.halted = false) (hbudget : 0 < st.budget) :
    cpuCycle st = .next (retireCycle st) := by
  simp [cpuCycle, hh, Nat.pos_iff_ne_zero.1 hbudget]

/-- Settles O50: the three cases of the cycle; `retireCycle` is the update of the two counts. -/
theorem cycleOrder : Obligations.CycleOrder := fun _ =>
  ⟨cpuCycle_of_halted, cpuCycle_of_budget, cpuCycle_of_boundary⟩

end Sys2Proof.Machine
end

section
/-! PROOFS. The bus as a map: an access depends on its address through the route alone, so a mirror forwards every kind
of access (R262); the masks of mapper 0 (R271); and the controller ports as shift registers (R280 to R284). -/

namespace Sys2Proof.Machine

/-! ## Masks and routes -/

/-- R262, R271: an address masked with the low `k` bits. -/
theorem toNat_and_mask (w : Addr) {k : Nat} (hk : k ≤ 16) :
    (w &&& BitVec.ofNat 16 (2 ^ k - 1)).toNat = w.toNat % 2 ^ k := by
  have hle : 2 ^ k ≤ 2 ^ 16 := Nat.pow_le_pow_right (by decide) hk
  have hpos : 0 < 2 ^ k := Nat.two_pow_pos k
  rw [BitVec.toNat_and, BitVec.toNat_ofNat, Nat.mod_eq_of_lt (by omega), Nat.and_two_pow_sub_one_eq_mod]

theorem toNat_and_07FF (w : Addr) : (w &&& 0x07FF).toNat = w.toNat % 0x800 := toNat_and_mask w (k := 11) (by decide)

theorem toNat_and_7 (w : Addr) : (w &&& 7).toNat = w.toNat % 8 := toNat_and_mask w (k := 3) (by decide)

/-- R260, R262: RAM answers below `0x2000`, over and over. -/
theorem route_of_lt_2000 (c : Cartridge) {addr : Addr} (h : addr.toNat < 0x2000) :
    route c addr = .ram (addr.toNat % 0x800) := by
  simp [route, h]

section
variable {addr peer : Addr} {st : State}

/-- R251: what a read, a write and a peek do depends on the address through its route alone. -/
theorem accesses_of_route_eq (h : route st.launch.cart addr = route st.launch.cart peer) (b : Byte) :
    busRead addr st = busRead peer st ∧ busWrite addr b st = busWrite peer b st ∧
      busPeek addr st = busPeek peer st := by
  have read : busRead addr st = busRead peer st := by simp [busRead, h]
  exact ⟨read, by simp [busWrite, h], congrArg Prod.fst read⟩

theorem busRead_of_route_prgRam {k : Nat} (h : route st.launch.cart addr = .prgRam k) :
    busRead addr st = (st.prgRam.read k, st) := by
  simp [busRead, h]

theorem busWrite_of_route_prgRam {k : Nat} (h : route st.launch.cart addr = .prgRam k) (b : Byte) :
    busWrite addr b st = st.setPrgRam (st.prgRam.write k b) := by
  simp [busWrite, h]

theorem busRead_of_route_prgRom {k : Nat} (h : route st.launch.cart addr = .prgRom k) :
    busRead addr st = (st.launch.cart.prgRom.read k, st) := by
  simp [busRead, h]

/-- R49: a write to ROM is dropped. -/
theorem busWrite_of_route_prgRom {k : Nat} (h : route st.launch.cart addr = .prgRom k) (b : Byte) :
    busWrite addr b st = st := by
  simp [busWrite, h]

end

/-! ## Mapper 0 (R271) -/

section
variable {c : Cartridge} {addr : Addr} (hi : c.inserted = true)
include hi

theorem route_expansion (h1 : 0x4020 ≤ addr.toNat) (h2 : addr.toNat ≤ 0x5FFF) : route c addr = .nothing := by
  rw [route_high c h1, Cartridge.route, if_pos hi, if_pos (by omega)]

theorem route_prgRam {k : Nat} (hk : c.prgRamLog = some k) (h1 : 0x6000 ≤ addr.toNat) (h2 : addr.toNat ≤ 0x7FFF) :
    route c addr = .prgRam ((addr.toNat - 0x6000) &&& (2 ^ k - 1)) := by
  rw [route_high c (by omega), Cartridge.route, if_pos hi, if_neg (by omega), if_pos (by omega), hk,
    Nat.and_two_pow_sub_one_eq_mod]

theorem route_noPrgRam (hn : c.prgRamLog = none) (h1 : 0x6000 ≤ addr.toNat) (h2 : addr.toNat ≤ 0x7FFF) :
    route c addr = .nothing := by
  rw [route_high c (by omega), Cartridge.route, if_pos hi, if_neg (by omega), if_pos (by omega), hn]

theorem route_prgRom (h : 0x8000 ≤ addr.toNat) :
    route c addr = .prgRom ((addr.toNat - 0x8000) &&& (c.prgSize.bytes - 1)) := by
  have mask (n : Nat) : n % c.prgSize.bytes = n &&& (c.prgSize.bytes - 1) := by
    cases c.prgSize with
    | nrom128 => exact (Nat.and_two_pow_sub_one_eq_mod n 14).symm
    | nrom256 => exact (Nat.and_two_pow_sub_one_eq_mod n 15).symm
  rw [route_high c (by omega), Cartridge.route, if_pos hi, if_neg (by omega), if_neg (by omega), mask]

end

/-! ## The controller ports (R280 to R284) -/

/-- R280: a player's shift byte. -/
def Pads.shift (q : Pads) : Player → Byte
  | .one => q.shift1
  | .two => q.shift2

/-- R280: a player's parallel byte. -/
def Pads.parallel (q : Pads) : Player → Byte
  | .one => q.parallel1
  | .two => q.parallel2

theorem Pads.read_value (q : Pads) (player : Player) : (q.read player).1 = q.shift player >>> 7 := by
  cases player <;> rfl

theorem Pads.shift_read (q : Pads) (player : Player) : (q.read player).2.shift player = q.shift player <<< 1 := by
  cases player <;> rfl

theorem Pads.shift_latch (q : Pads) (player : Player) : q.latch.shift player = q.parallel player := by
  cases player <;> rfl

/-- R282: each read of a port shifts its byte left by one. -/
theorem shift_iterate_busRead {addr : Addr} {player : Player} (ha : ∀ c, route c addr = .pad player) (k : Nat)
    (st : State) :
    ((fun s => (busRead addr s).2)^[k] st).pads.shift player = st.pads.shift player <<< k := by
  induction k generalizing st with
  | zero => simp
  | succ k ih =>
    rw [Function.iterate_succ_apply, ih, busRead_of_route_pad (ha _), State.setPads_pads, Pads.shift_read,
      ← BitVec.shiftLeft_add, Nat.add_comm]

/-- R282: bit 7 of a byte shifted left `k` times is its bit `7 - k`, and 0 from the eighth shift on. -/
theorem shiftLeft_ushiftRight_seven (v : Byte) (k : Nat) :
    (v <<< k) >>> 7 = if k < 8 ∧ v.getLsbD (7 - k) = true then 1 else 0 := by
  have top (w : Byte) : w >>> 7 = if w.getLsbD 7 = true then 1 else 0 := by
    simp only [getLsbD_seven, decide_eq_true_eq]
    split <;> bv_omega
  have bit : (v <<< k).getLsbD 7 = (decide (k < 8) && v.getLsbD (7 - k)) := by
    rw [BitVec.getLsbD_shiftLeft]
    by_cases hk : k < 8
    · simp [hk, show ¬ 7 < k by omega]
    · simp [hk, show 7 < k by omega]
  simp only [top, bit, Bool.and_eq_true, decide_eq_true_eq]

/-- R281, R282: what a port's read gives after the latch and `k` reads. -/
theorem busRead_port_after_latch {addr : Addr} {player : Player} (ha : ∀ c, route c addr = .pad player) (b : Byte)
    (k : Nat) (st : State) :
    (busRead addr ((fun s => (busRead addr s).2)^[k] (busWrite 0x4016 b st))).1 =
      if k < 8 ∧ (st.pads.parallel player).getLsbD (7 - k) = true then 1 else 0 := by
  have latched : busWrite 0x4016 b st = st.setPads st.pads.latch := rfl
  rw [busRead_of_route_pad (ha _), Pads.read_value, shift_iterate_busRead ha, latched, State.setPads_pads,
    Pads.shift_latch, shiftLeft_ushiftRight_seven]

/-! ## The obligations -/

/-- Settles O13: each mirror's peer has the route of the address, since the masks keep the offset in the device. -/
theorem mirrorsForward : Obligations.MirrorsForward := by
  intro addr b st
  refine ⟨fun h1 h2 => ?ram, fun h1 h2 => ?ppu⟩
  case ram =>
    have simpler : (addr - 0x0800) &&& 0x07FF = addr &&& 0x07FF := by
      apply BitVec.eq_of_toNat_eq
      rw [toNat_and_07FF, toNat_and_07FF]
      bv_omega
    have low : (addr &&& 0x07FF).toNat < 0x2000 := by rw [toNat_and_07FF]; omega
    refine ⟨simpler, accesses_of_route_eq ?_ b⟩
    rw [simpler, route_of_lt_2000 _ low, route_of_lt_2000 _ (by omega), toNat_and_07FF, Nat.mod_mod]
  case ppu =>
    have simpler : (0x2000 : Addr) + ((addr - 0x2008) &&& 7) = 0x2000 + (addr &&& 7) := by
      congr 1
      apply BitVec.eq_of_toNat_eq
      rw [toNat_and_7, toNat_and_7]
      bv_omega
    have peer : ((0x2000 : Addr) + (addr &&& 7)).toNat = 0x2000 + addr.toNat % 8 := by
      have := toNat_and_7 addr
      bv_omega
    refine ⟨simpler, accesses_of_route_eq ?_ b⟩
    rw [simpler, (route_eq_ppu_iff _ addr _).2 ⟨by omega, by omega, rfl⟩, eq_comm, route_eq_ppu_iff, peer]
    omega

/-- Settles O14: each range of the cartridge has its route, and an access is what its route says. -/
theorem mapperZero : Obligations.MapperZero := by
  intro addr b st hi
  refine ⟨fun h1 h2 => ?expansion, fun k hk h1 h2 => ?ram, fun hn h1 h2 => ?noRam, fun h => ?rom⟩
  case expansion =>
    have hr := route_expansion hi h1 h2
    exact ⟨busRead_of_route_nothing hr, busWrite_of_route_nothing hr b⟩
  case ram =>
    have hr := route_prgRam hi hk h1 h2
    exact ⟨busRead_of_route_prgRam hr, busWrite_of_route_prgRam hr b⟩
  case noRam =>
    have hr := route_noPrgRam hi hn h1 h2
    exact ⟨busRead_of_route_nothing hr, busWrite_of_route_nothing hr b⟩
  case rom =>
    have hr := route_prgRom hi h
    exact ⟨busRead_of_route_prgRom hr, busWrite_of_route_prgRom hr b⟩

/-- Settles O17: one lemma for both ports. -/
theorem controllerSerialOrder : Obligations.ControllerSerialOrder := fun st b k =>
  ⟨busRead_port_after_latch (player := .one) (fun _ => rfl) b k st,
    busRead_port_after_latch (player := .two) (fun _ => rfl) b k st⟩

end Sys2Proof.Machine
end

section
/-! PROOFS. The APU: what its status register and the write of `0x4017` do (R384, R402), that a length counter at 0 is
raised by its load register alone (R386), and the cycle on which the frame counter raises the IRQ latch (R401). -/

namespace Sys2Proof.Machine

/-! ## The status register (R384) -/

theorem busRead_of_route_apu {addr : Addr} {st : State} {r : Nat} (h : route st.launch.cart addr = .apu r) :
    busRead addr st = (st.apu.readReg r, st) := by
  simp [busRead, h]

theorem busWrite_of_route_apu {addr : Addr} {st : State} {r : Nat} (h : route st.launch.cart addr = .apu r)
    (b : Byte) : busWrite addr b st = apuWrite r b st := by
  simp [busWrite, h]

/-- R384: bits 0 to 3 are the four length flags, and bits 4 to 7 are 0. -/
theorem Apu.status_bits (u : Apu) :
    u.status.getLsbD 0 = (u.pulse1.length != 0) ∧ u.status.getLsbD 1 = (u.pulse2.length != 0) ∧
    u.status.getLsbD 2 = (u.triangle.length != 0) ∧ u.status.getLsbD 3 = (u.noise.length != 0) ∧
    u.status &&& 0xF0 = 0 := by
  unfold Apu.status
  generalize (u.noise.length != 0) = n, (u.triangle.length != 0) = t, (u.pulse2.length != 0) = p2,
    (u.pulse1.length != 0) = p1
  revert n t p2 p1
  decide

/-! ## Lengths at 0 (R386) -/

/-- R386: a length clock leaves 0 alone. -/
@[simp] theorem lengthClock_zero (halt : Bool) : lengthClock 0 halt = 0 := by simp [lengthClock]

/-- R386: every length that is 0 in `u` is 0 in `u'`, but for the channel whose load register is `written`. -/
structure Apu.KeepsZeros (written : Option Nat) (u u' : Apu) : Prop where
  pulse1 : written ≠ some 0x03 → u.pulse1.length = 0 → u'.pulse1.length = 0
  pulse2 : written ≠ some 0x07 → u.pulse2.length = 0 → u'.pulse2.length = 0
  triangle : written ≠ some 0x0B → u.triangle.length = 0 → u'.triangle.length = 0
  noise : written ≠ some 0x0F → u.noise.length = 0 → u'.noise.length = 0

theorem Apu.KeepsZeros.trans {written : Option Nat} {u u' u'' : Apu} (k : u.KeepsZeros written u')
    (k' : u'.KeepsZeros written u'') : u.KeepsZeros written u'' :=
  ⟨fun h => k'.pulse1 h ∘ k.pulse1 h, fun h => k'.pulse2 h ∘ k.pulse2 h, fun h => k'.triangle h ∘ k.triangle h,
    fun h => k'.noise h ∘ k.noise h⟩

theorem Apu.keepsZeros_timerTicks (l : Launch) (u : Apu) : u.KeepsZeros none (u.timerTicks l) := by
  have pulse (c : Pulse) : c.timerTick.length = c.length := by unfold Pulse.timerTick; split <;> rfl
  have triangle (c : Triangle) : c.timerTick.length = c.length := by unfold Triangle.timerTick; split <;> rfl
  have noise (c : Noise) : (c.timerTick l).length = c.length := by unfold Noise.timerTick; split <;> rfl
  unfold Apu.timerTicks
  split
  · exact ⟨fun _ => (pulse _).trans, fun _ => (pulse _).trans, fun _ => (triangle _).trans,
      fun _ => (noise _).trans⟩
  · exact ⟨fun _ => id, fun _ => id, fun _ => (triangle _).trans, fun _ => id⟩

theorem Apu.keepsZeros_sampleTick (l : Launch) (u : Apu) : u.KeepsZeros none (u.sampleTick l) := by
  unfold Apu.sampleTick
  simp only
  split <;> exact ⟨fun _ => id, fun _ => id, fun _ => id, fun _ => id⟩

/-- R401: the length clocks are all that a frame step does to the lengths. -/
theorem Apu.keepsZeros_clockLengths (u : Apu) : u.KeepsZeros none u.clockLengths := by
  constructor <;> intro _ h <;> simp [Apu.clockLengths, Pulse.lengthTick, Pulse.sweepClock, h]

theorem Apu.keepsZeros_runFrameStep (u : Apu) (k : Nat) : u.KeepsZeros none (u.runFrameStep k) := by
  have envelopes : u.KeepsZeros none u.clockEnvelopes :=
    ⟨fun _ => id, fun _ => id, fun _ => id, fun _ => id⟩
  have lengths := envelopes.trans u.clockEnvelopes.keepsZeros_clockLengths
  unfold Apu.runFrameStep
  split
  case h_1 | h_3 | h_5 | h_7 => exact envelopes
  case h_2 | h_4 | h_6 | h_8 => exact lengths
  case h_9 => exact ⟨fun _ => id, fun _ => id, fun _ => id, fun _ => id⟩

theorem Apu.keepsZeros_frameCounterTick (l : Launch) (u : Apu) : u.KeepsZeros none (u.frameCounterTick l) := by
  have counted : u.KeepsZeros none { u with frameCycle := u.frameCycle + 1 } :=
    ⟨fun _ => id, fun _ => id, fun _ => id, fun _ => id⟩
  obtain ⟨p1, p2, t, n⟩ := counted.trans (Apu.keepsZeros_runFrameStep _ u.frameStep)
  unfold Apu.frameCounterTick
  simp only
  generalize (if u.fiveStep = true then 5 else 4) = steps
  split
  · split <;> exact ⟨p1, p2, t, n⟩
  · exact counted

/-- R371, R386: an APU cycle raises no length from 0. -/
theorem Apu.keepsZeros_cycle (l : Launch) (u : Apu) : u.KeepsZeros none (u.cycle l) := by
  obtain ⟨p1, p2, t, n⟩ := ((u.keepsZeros_timerTicks l).trans (Apu.keepsZeros_frameCounterTick l _)).trans
    (Apu.keepsZeros_sampleTick l _)
  exact ⟨p1, p2, t, n⟩

/-- R384: a channel that is enabled keeps its length, and one that is disabled has length 0. -/
theorem Apu.keepsZeros_writeEnable (u : Apu) (b : Byte) (written : Option Nat) :
    u.KeepsZeros written (u.writeEnable b) := by
  constructor <;> intro _ h <;>
    simp [Apu.writeEnable, Pulse.setEnabled, Triangle.setEnabled, Noise.setEnabled, h]

/-- R386: a register write raises no length from 0 but that of the channel whose load register it is. -/
theorem Apu.keepsZeros_writeReg (l : Launch) (u : Apu) (r : Nat) (b : Byte) :
    u.KeepsZeros (some r) (u.writeReg l r b) := by
  unfold Apu.writeReg
  split
  case h_4 => exact ⟨fun h => absurd rfl h, fun _ => id, fun _ => id, fun _ => id⟩
  case h_8 => exact ⟨fun _ => id, fun h => absurd rfl h, fun _ => id, fun _ => id⟩
  case h_11 => exact ⟨fun _ => id, fun _ => id, fun h => absurd rfl h, fun _ => id⟩
  case h_14 => exact ⟨fun _ => id, fun _ => id, fun _ => id, fun h => absurd rfl h⟩
  case h_16 => exact u.keepsZeros_writeEnable b _
  all_goals exact ⟨fun _ => id, fun _ => id, fun _ => id, fun _ => id⟩

/-! ## The frame IRQ (R400, R401) -/

/-- R401: the IRQ is raised on the cycle that reaches the fourth step of the 4-step sequence, inhibit clear. -/
theorem Apu.raisesIrq_eq (l : Launch) (u : Apu) :
    u.raisesIrq l =
      (!u.fiveStep && !u.irqInhibit && u.frameStep == 3 && l.frameStepCycles[3]? == some (u.frameCycle + 1)) := by
  unfold Apu.raisesIrq Apu.frameStepDue
  by_cases h : u.frameStep = 3
  · rw [h, beq_self_eq_true, Bool.and_true, Bool.and_true, Bool.and_assoc, Bool.and_comm]
  · rw [beq_false_of_ne h, Bool.and_false, Bool.and_false, Bool.false_and, Bool.false_and, Bool.false_and]

/-- R371, R401: the APU cycle, then the latch. -/
theorem apuTick_eq (st : State) :
    apuTick st =
      (st.setApu (st.apu.cycle st.launch)).setIrqPending (st.irqPending || st.apu.raisesIrq st.launch) := by
  unfold apuTick
  simp only
  split
  next h => rw [h, Bool.or_true]; rfl
  next h => rw [Bool.eq_false_of_not_eq_true h, Bool.or_false]; rfl

/-! ## The obligations -/

/-- Settles O18: `0x4017` leads to the second port, whose write broadcasts `APU_FRC` with bits 7 and 6. -/
theorem frameCounterControl : Obligations.FrameCounterControl := fun b st =>
  broadcast_frc (b.getLsbD 7) (b.getLsbD 6) st

/-- Settles O19: the write is `Apu.writeEnable`, the read `Apu.status`, bit by bit. -/
theorem apuStatusRegister : Obligations.ApuStatusRegister := by
  intro b st
  have hr : route st.launch.cart 0x4015 = .apu 0x15 := rfl
  have read : busRead 0x4015 st = (st.apu.status, st) := busRead_of_route_apu hr
  obtain ⟨pulse1, pulse2, triangle, noise, high⟩ := st.apu.status_bits
  refine ⟨busWrite_of_route_apu hr b, congrArg Prod.snd read, ?_⟩
  simp only [read, pulse1, pulse2, triangle, noise, high, bne_iff_ne, Nat.pos_iff_ne_zero, and_self]

/-- Settles O20: the zeros a cycle keeps and those a register write keeps, channel by channel. -/
theorem lengthStaysZero : Obligations.LengthStaysZero := by
  intro u l r b
  have cycle := u.keepsZeros_cycle l
  have write := u.keepsZeros_writeReg l r b
  have other {load : Nat} (h : r ≠ load) : some r ≠ some load := fun e => h (Option.some.inj e)
  exact ⟨fun h => ⟨cycle.pulse1 nofun h, fun hr => write.pulse1 (other hr) h⟩,
    fun h => ⟨cycle.pulse2 nofun h, fun hr => write.pulse2 (other hr) h⟩,
    fun h => ⟨cycle.triangle nofun h, fun hr => write.triangle (other hr) h⟩,
    fun h => ⟨cycle.noise nofun h, fun hr => write.noise (other hr) h⟩⟩

/-- Settles O21: `apuTick_eq` with the condition of R401 written out. -/
theorem frameIrq : Obligations.FrameIrq := by
  intro st
  have latch := congrArg State.irqPending (apuTick_eq st)
  rw [State.setIrqPending_irqPending] at latch
  refine ⟨?_, ?_⟩
  · rw [latch, Apu.raisesIrq_eq]
  · rw [latch, apuTick_eq]

end Sys2Proof.Machine
end

section
/-! PROOFS. The registers of the PPU: PPUSTATUS (R303), the two write-twice registers (R306, R308) through the fields of
V and T (R309), PPUDATA (R307), and palette RAM behind it (R314). -/

namespace Sys2Proof.Machine

/-! ## The bits of the status (R303, R322, R335) -/

theorem putBit_seven_false (v : Byte) : putBit v 7 false = v &&& 0x7F := rfl

theorem putBit_seven_true (v : Byte) : putBit v 7 true = v ||| 0x80 := rfl

theorem putBit_five_true (v : Byte) : putBit v 5 true = v ||| 0x20 := rfl

/-- R323: VBlank, the sprite zero hit and the overflow cleared. -/
theorem putBit_status_false (v : Byte) : putBit (putBit (putBit v 7 false) 6 false) 5 false = v &&& 0x1F := by
  have mask : (0x7F &&& ~~~BitVec.twoPow 8 6 &&& ~~~BitVec.twoPow 8 5 : Byte) = 0x1F := by decide
  rw [← mask, ← BitVec.and_assoc, ← BitVec.and_assoc]
  rfl

/-! ## The fields of V and T (R309) -/

section
variable (v : BitVec 15) (c : BitVec 5) (f : BitVec 3)

theorem getLsbD_setCoarseX (i : Nat) :
    (setCoarseX v c).getLsbD i = if i < 5 then c.getLsbD i else v.getLsbD i := by
  simp only [setCoarseX, BitVec.getLsbD_append, BitVec.getLsbD_extractLsb']
  split
  · rfl
  · rw [show 5 + (i - 5) = i by omega, Bool.and_eq_right_iff_imp]
    intro h
    have := BitVec.lt_of_getLsbD h
    exact decide_eq_true (by omega)

theorem getLsbD_setCoarseY (i : Nat) :
    (setCoarseY v c).getLsbD i = if 5 ≤ i ∧ i < 10 then c.getLsbD (i - 5) else v.getLsbD i := by
  simp only [setCoarseY, BitVec.getLsbD_append, BitVec.getLsbD_extractLsb']
  by_cases low : i < 5
  · simp [low]
  · by_cases mid : i < 10
    · simp [low, mid, show 5 ≤ i by omega, show i - 5 < 5 by omega]
    · have bits (h : v.getLsbD i = true) : i < 15 := BitVec.lt_of_getLsbD h
      rw [if_neg low, if_neg (by omega), if_neg (by omega), show 10 + (i - 5 - 5) = i by omega,
        Bool.and_eq_right_iff_imp]
      exact fun h => decide_eq_true (by have := bits h; omega)

theorem getLsbD_setFineY (i : Nat) :
    (setFineY v f).getLsbD i = if i < 12 then v.getLsbD i else f.getLsbD (i - 12) := by
  simp only [setFineY, BitVec.getLsbD_append, BitVec.getLsbD_extractLsb', Nat.zero_add]
  split
  next h => rw [decide_eq_true h, Bool.true_and]
  next => rfl

/-- A field of V or T depends on its own bits alone. -/
theorem extractLsb'_congr {lo w : Nat} {v v' : BitVec 15}
    (h : ∀ i, lo ≤ i → i < lo + w → v.getLsbD i = v'.getLsbD i) : v.extractLsb' lo w = v'.extractLsb' lo w := by
  apply BitVec.eq_of_getLsbD_eq
  intro i hi
  rw [BitVec.getLsbD_extractLsb', BitVec.getLsbD_extractLsb', h (lo + i) (by omega) (by omega)]

@[simp] theorem coarseX_setCoarseX : coarseX (setCoarseX v c) = c := by
  apply BitVec.eq_of_getLsbD_eq
  intro i hi
  simp [coarseX, getLsbD_setCoarseX, hi]

@[simp] theorem coarseY_setCoarseX : coarseY (setCoarseX v c) = coarseY v :=
  extractLsb'_congr fun i h1 h2 => by rw [getLsbD_setCoarseX, if_neg (by omega)]

@[simp] theorem fineY_setCoarseX : fineY (setCoarseX v c) = fineY v :=
  extractLsb'_congr fun i h1 h2 => by rw [getLsbD_setCoarseX, if_neg (by omega)]

@[simp] theorem nametableX_setCoarseX : nametableX (setCoarseX v c) = nametableX v := getLsbD_setCoarseX v c 10

@[simp] theorem nametableY_setCoarseX : nametableY (setCoarseX v c) = nametableY v := getLsbD_setCoarseX v c 11

@[simp] theorem coarseX_setCoarseY : coarseX (setCoarseY v c) = coarseX v :=
  extractLsb'_congr fun i h1 h2 => by rw [getLsbD_setCoarseY, if_neg (by omega)]

@[simp] theorem coarseY_setCoarseY : coarseY (setCoarseY v c) = c := by
  apply BitVec.eq_of_getLsbD_eq
  intro i hi
  rw [coarseY, BitVec.getLsbD_extractLsb', getLsbD_setCoarseY, if_pos (by omega), decide_eq_true hi, Bool.true_and,
    Nat.add_sub_cancel_left]

@[simp] theorem nametableX_setCoarseY : nametableX (setCoarseY v c) = nametableX v := getLsbD_setCoarseY v c 10

@[simp] theorem nametableY_setCoarseY : nametableY (setCoarseY v c) = nametableY v := getLsbD_setCoarseY v c 11

@[simp] theorem coarseX_setFineY : coarseX (setFineY v f) = coarseX v :=
  extractLsb'_congr fun i h1 h2 => by rw [getLsbD_setFineY, if_pos (by omega)]

@[simp] theorem coarseY_setFineY : coarseY (setFineY v f) = coarseY v :=
  extractLsb'_congr fun i h1 h2 => by rw [getLsbD_setFineY, if_pos (by omega)]

@[simp] theorem fineY_setFineY : fineY (setFineY v f) = f := by
  apply BitVec.eq_of_getLsbD_eq
  intro i hi
  simp [fineY, getLsbD_setFineY, hi]

@[simp] theorem nametableX_setFineY : nametableX (setFineY v f) = nametableX v := getLsbD_setFineY v f 10

@[simp] theorem nametableY_setFineY : nametableY (setFineY v f) = nametableY v := getLsbD_setFineY v f 11

end

/-- R308: the coarse part of a scroll byte. -/
theorem toNat_scrollCoarse (b : Byte) : (b.extractLsb' 3 5).toNat = b.toNat / 8 := by
  have := b.isLt
  rw [BitVec.extractLsb'_toNat, Nat.shiftRight_eq_div_pow]
  omega

/-- R308: the fine part of a scroll byte. -/
theorem toNat_scrollFine (b : Byte) : (b.extractLsb' 0 3).toNat = b.toNat % 8 := by
  rw [BitVec.extractLsb'_toNat, Nat.shiftRight_zero]

/-! ## The write latch (R306, R308) -/

section
variable (c : Cartridge) {p : Ppu} (b : Byte)

theorem Ppu.writeReg_addr_first (hw : p.w = false) :
    p.writeReg c 6 b =
      { p with lastWrite := b, w := true, t := (p.t &&& 0x00FF) ||| ((b &&& 0x3F).setWidth 15 <<< 8) } := by
  simp [Ppu.writeReg, Ppu.writeAddr, hw]

theorem Ppu.writeReg_addr_second (hw : p.w = true) :
    p.writeReg c 6 b =
      { p with
        lastWrite := b, w := false, t := (p.t &&& 0x7F00) ||| b.setWidth 15
        v := (p.t &&& 0x7F00) ||| b.setWidth 15 } := by
  simp [Ppu.writeReg, Ppu.writeAddr, hw]

theorem Ppu.writeReg_scroll_first (hw : p.w = false) :
    p.writeReg c 5 b =
      { p with
        lastWrite := b, w := true, t := setCoarseX p.t (b.extractLsb' 3 5), fineX := b.extractLsb' 0 3 } := by
  simp [Ppu.writeReg, Ppu.writeScroll, hw]

theorem Ppu.writeReg_scroll_second (hw : p.w = true) :
    p.writeReg c 5 b =
      { p with
        lastWrite := b, w := false
        t := setFineY (setCoarseY p.t (b.extractLsb' 3 5)) (b.extractLsb' 0 3) } := by
  simp [Ppu.writeReg, Ppu.writeScroll, hw]

end

/-! ## PPUDATA (R307) -/

/-- R307: V moved on, modulo 2^15. -/
theorem Ppu.advanceV_eq {p : Ppu} {inc : Nat} (h : inc = if p.ctrl.getLsbD 2 then 32 else 1) :
    p.advanceV = { p with v := BitVec.ofNat 15 (p.v.toNat + inc) } := by
  subst h
  have moved : p.v + (if p.ctrl.getLsbD 2 then 32 else 1) =
      BitVec.ofNat 15 (p.v.toNat + if p.ctrl.getLsbD 2 then 32 else 1) := by
    apply BitVec.eq_of_toNat_eq
    split <;> simp
  rw [Ppu.advanceV, moved]

/-- R312: the PPU bus leaves V and PPUCTRL alone. -/
theorem Ppu.busWrite_v_ctrl (c : Cartridge) (p : Ppu) (a : BitVec 14) (b : Byte) :
    (p.busWrite c a b).v = p.v ∧ (p.busWrite c a b).ctrl = p.ctrl := by
  unfold Ppu.busWrite
  simp only
  split
  · exact ⟨rfl, rfl⟩
  · split <;> exact ⟨rfl, rfl⟩

/-! ## Palette RAM (R314) -/

/-- R314: two addresses name one entry if they agree modulo 32, or modulo 16 where the entry is one of a folded pair. -/
theorem paletteIndex_eq_iff (a a' : Nat) :
    paletteIndex a = paletteIndex a' ↔ a' % 32 % 16 = a % 32 % 16 ∧ a % 4 = 0 ∨ a' % 32 = a % 32 := by
  unfold paletteIndex
  simp only
  split <;> split <;> omega

section
variable (c : Cartridge) (p : Ppu) {a : BitVec 14} (ha : 0x3F00 ≤ a.toNat)
include ha

theorem Ppu.busRead_palette : p.busRead c a = p.paletteRead a.toNat := by
  simp only [Ppu.busRead]
  rw [if_neg (by omega), if_neg (by omega)]

theorem Ppu.busWrite_palette (b : Byte) :
    p.busWrite c a b = { p with pal := p.pal.write (paletteIndex a.toNat) b } := by
  simp only [Ppu.busWrite]
  rw [if_neg (by omega), if_neg (by omega)]

/-- R314: what any palette address reads as after a write. -/
theorem Ppu.busRead_busWrite_palette (b : Byte) {a' : BitVec 14} (ha' : 0x3F00 ≤ a'.toNat) :
    (p.busWrite c a b).busRead c a' =
      if paletteIndex a.toNat = paletteIndex a'.toNat then b &&& (if p.mask.getLsbD 0 then 0x30 else 0xFF)
      else p.busRead c a' := by
  rw [Ppu.busWrite_palette c p ha, Ppu.busRead_palette c _ ha', Ppu.busRead_palette c p ha']
  simp only [Ppu.paletteRead, Memory.read_write]
  split <;> rfl

end

/-! ## The obligations -/

/-- Settles O54: the address leads to register 2, whose read is `Ppu.readStatus`. -/
theorem ppuStatusRead : Obligations.PpuStatusRead := by
  intro addr st h1 h2 h3
  have read := busRead_of_route_ppu ((route_eq_ppu_iff st.launch.cart addr 2).2 ⟨h1, h2, h3⟩)
  refine ⟨congrArg Prod.fst read, rfl, ?_⟩
  rw [read, ← putBit_seven_false]
  rfl

/-- Settles O55: the four writes as record updates, and the fields of what they write in T. -/
theorem scrollAndAddressLatch : Obligations.ScrollAndAddressLatch := by
  intro c p b
  refine ⟨Ppu.writeReg_addr_first c b, Ppu.writeReg_addr_second c b, fun hw => ?first, fun hw => ?second⟩
  case first =>
    rw [Ppu.writeReg_scroll_first c b hw, coarseX_setCoarseX]
    simp only [toNat_scrollCoarse, toNat_scrollFine, coarseY_setCoarseX, fineY_setCoarseX, nametableX_setCoarseX,
      nametableY_setCoarseX, and_self]
  case second =>
    rw [Ppu.writeReg_scroll_second c b hw]
    simp only [toNat_scrollCoarse, toNat_scrollFine, coarseY_setFineY, coarseY_setCoarseY, fineY_setFineY,
      coarseX_setFineY, coarseX_setCoarseY, nametableX_setFineY, nametableX_setCoarseY, nametableY_setFineY,
      nametableY_setCoarseY, and_self]

/-- Settles O56: both accesses end in `Ppu.advanceV`, and the PPU bus leaves V and PPUCTRL alone. -/
theorem ppuDataAccess : Obligations.PpuDataAccess := by
  intro c p b inc hinc
  refine ⟨?value, ?read, ?write⟩
  case value =>
    have addr : p.dataAddr.toNat = p.v.toNat % 16384 := BitVec.toNat_setWidth 14 p.v
    rw [← addr]
    rfl
  case read => exact Ppu.advanceV_eq (p := { p with dataBuffer := _ }) hinc
  case write =>
    obtain ⟨hv, hctrl⟩ := Ppu.busWrite_v_ctrl c { p with lastWrite := b } p.dataAddr b
    have moved := Ppu.advanceV_eq (p := Ppu.busWrite c { p with lastWrite := b } p.dataAddr b) (inc := inc)
      (by rw [hctrl]; exact hinc)
    rw [hv] at moved
    exact moved

/-- Settles O57: the entry written is the entry read exactly in the cases of `paletteIndex_eq_iff`. -/
theorem paletteAliases : Obligations.PaletteAliases := by
  intro c p a a' b ha ha'
  refine ⟨?same, fun h => ?entry, fun h => ?other⟩
  case same => rw [Ppu.busRead_busWrite_palette c p ha b ha, if_pos rfl]
  case entry => rw [Ppu.busRead_busWrite_palette c p ha b ha', if_pos ((paletteIndex_eq_iff _ _).2 h)]
  case other => rw [Ppu.busRead_busWrite_palette c p ha b ha', if_neg (mt (paletteIndex_eq_iff _ _).1 h)]

end Sys2Proof.Machine
end

section
/-! PROOFS. One dot of the PPU (R320). The dot begins with the DMA countdown and the VBlank updates, renders, and moves
the beam on; so the length of a frame is a fact about the beam alone (R321), and what VBlank does one about how the dot
begins (R322, R323, R351). Also the scan that fills the sprite buffer (R335). -/

namespace Sys2Proof.Machine

/-! ## How a dot begins (R322, R323, R351) -/

/-- R322: VBlank starts on the dot (241, 1). -/
abbrev Ppu.AtVblank (p : Ppu) : Prop := p.scanline = 241 ∧ p.dot = 1

/-- R322, R323: the status once the VBlank updates of the dot are made. -/
def Ppu.vblankStatus (p : Ppu) : Byte :=
  if p.AtVblank then p.status ||| 0x80
  else if p.scanline = 261 ∧ p.dot = 1 then p.status &&& 0x1F
  else p.status

/-- R320: the PPU after the countdown and the VBlank updates, before the dot renders. -/
def Ppu.beginDot (p : Ppu) : Ppu :=
  { p with
    dmaActive := p.dmaActive && p.dmaCounter != 0
    dmaCounter := if p.dmaActive then p.dmaCounter - 1 else p.dmaCounter
    status := p.vblankStatus
    frameCount := p.frameCount + if p.AtVblank then 1 else 0 }

theorem Ppu.dmaCountdown_eq (p : Ppu) :
    p.dmaCountdown =
      { p with
        dmaActive := p.dmaActive && p.dmaCounter != 0
        dmaCounter := if p.dmaActive then p.dmaCounter - 1 else p.dmaCounter } := by
  unfold Ppu.dmaCountdown
  by_cases ha : p.dmaActive = true
  · rw [if_pos ha]
    by_cases hn : p.dmaCounter = 0 <;> simp [ha, hn]
  · have same : (p.dmaActive && p.dmaCounter != 0) = p.dmaActive := by simp [ha]
    rw [if_neg ha, if_neg ha, same]

theorem Ppu.vblankDot_iff (p : Ppu) : p.vblankDot = true ↔ p.AtVblank := by simp [Ppu.vblankDot]

theorem Ppu.vblankStart_vblankEnd_eq (p : Ppu) :
    p.vblankStart.vblankEnd =
      { p with status := p.vblankStatus, frameCount := p.frameCount + if p.AtVblank then 1 else 0 } := by
  unfold Ppu.vblankStart Ppu.vblankStatus
  simp only [Ppu.vblankDot_iff]
  by_cases h : p.AtVblank
  · have apart : ¬ (p.scanline = 261 ∧ p.dot = 1) := fun h' => absurd (h.1.symm.trans h'.1) (by decide)
    rw [if_pos h, if_pos h, if_pos h, Ppu.vblankEnd, if_neg apart, putBit_seven_true]
  · rw [if_neg h, if_neg h, if_neg h, Ppu.vblankEnd, Nat.add_zero]
    split
    · rw [putBit_status_false]
    · rfl

/-- R320: the phases of a dot. -/
theorem Ppu.tick_eq (c : Cartridge) (p : Ppu) : p.tick c = (p.beginDot.renderStep c).pixelStep.advance := by
  unfold Ppu.tick
  simp only [Ppu.dmaCountdown_eq, Ppu.vblankStart_vblankEnd_eq]
  rfl

/-! ## The beam (R321) -/

/-- Where the beam is, and in which kind of frame. -/
structure Beam where
  dot : Nat
  scanline : Nat
  oddFrame : Bool

def Ppu.beam (p : Ppu) : Beam := { dot := p.dot, scanline := p.scanline, oddFrame := p.oddFrame }

/-- R321: the next dot of the beam. -/
def Beam.next (b : Beam) : Beam :=
  let d := b.dot + 1
  let d := if b.scanline = 261 ∧ d = 339 ∧ b.oddFrame = true then 340 else d
  if d = 341 then
    if b.scanline + 1 = 262 then { dot := 0, scanline := 0, oddFrame := !b.oddFrame }
    else { b with dot := 0, scanline := b.scanline + 1 }
  else { b with dot := d }

/-- `p` with its beam at `b`. -/
def Ppu.withBeam (p : Ppu) (b : Beam) : Ppu :=
  { p with dot := b.dot, scanline := b.scanline, oddFrame := b.oddFrame }

/-- R321: the advance moves the beam, and nothing else. -/
theorem Ppu.advance_eq (p : Ppu) : p.advance = p.withBeam p.beam.next := by
  unfold Beam.next
  simp only [apply_ite p.withBeam]
  rfl

/-- R320: rendering leaves the beam, the countdown, the frame count and PPUCTRL as the dot began. -/
theorem Ppu.sameBeam_rendered (c : Cartridge) (p : Ppu) :
    Ppu.SameBeam p.beginDot (p.beginDot.renderStep c).pixelStep :=
  (Ppu.sameBeam_renderStep c p.beginDot).trans (Ppu.sameBeam_pixelStep _)

theorem Ppu.beam_tick (c : Cartridge) (p : Ppu) : (p.tick c).beam = p.beam.next := by
  have same := Ppu.sameBeam_rendered c p
  have beam : (p.beginDot.renderStep c).pixelStep.beam = p.beam := by
    rw [Ppu.beam, same.dot, same.scanline, same.oddFrame]
    rfl
  rw [Ppu.tick_eq, Ppu.advance_eq, beam]
  rfl

theorem Ppu.beam_iterate_tick (c : Cartridge) (n : Nat) (p : Ppu) :
    ((Ppu.tick c)^[n] p).beam = Beam.next^[n] p.beam :=
  Function.Semiconj.iterate_right (f := Ppu.beam) (ga := Ppu.tick c) (gb := Beam.next) (Ppu.beam_tick c) n p

/-- R321: along a line, up to its last dot or to the skipped dot. -/
theorem Beam.iterate_next_dots {n s : Nat} {o : Bool} (h : n ≤ if s = 261 ∧ o = true then 338 else 340) :
    Beam.next^[n] ⟨0, s, o⟩ = ⟨n, s, o⟩ := by
  induction n with
  | zero => rfl
  | succ n ih =>
    have skip : ¬ (s = 261 ∧ n + 1 = 339 ∧ o = true) := by
      rintro ⟨hs, hn, ho⟩
      rw [if_pos ⟨hs, ho⟩] at h
      omega
    have last : n + 1 ≠ 341 := by split at h <;> omega
    rw [Function.iterate_succ_apply', ih (by omega)]
    simp only [Beam.next, if_neg skip, if_neg last]

/-- R321: a visible line, or a line of VBlank, has 341 dots. -/
theorem Beam.iterate_next_line {s : Nat} (o : Bool) (hs : s < 261) : Beam.next^[341] ⟨0, s, o⟩ = ⟨0, s + 1, o⟩ := by
  have hne : ¬ (s = 261 ∧ o = true) := by omega
  rw [Function.iterate_succ_apply' Beam.next 340, Beam.iterate_next_dots (by rw [if_neg hne])]
  simp [Beam.next, show s ≠ 261 by omega]

theorem Beam.iterate_next_lines {k : Nat} (o : Bool) (hk : k ≤ 261) :
    Beam.next^[341 * k] ⟨0, 0, o⟩ = ⟨0, k, o⟩ := by
  induction k with
  | zero => rfl
  | succ k ih => rw [Nat.mul_succ, Nat.add_comm, Function.iterate_add_apply, ih (by omega), Beam.iterate_next_line o hk]

/-- R321: the pre-render line of an even frame has 341 dots. -/
theorem Beam.iterate_next_last_even : Beam.next^[341] ⟨0, 261, false⟩ = ⟨0, 0, true⟩ := by
  rw [Function.iterate_succ_apply' Beam.next 340, Beam.iterate_next_dots (by decide)]
  rfl

/-- R321: that of an odd frame has 340, since dot 339 is skipped. -/
theorem Beam.iterate_next_last_odd : Beam.next^[340] ⟨0, 261, true⟩ = ⟨0, 0, false⟩ := by
  rw [Function.iterate_succ_apply' Beam.next 339, Function.iterate_succ_apply' Beam.next 338,
    Beam.iterate_next_dots (by decide)]
  rfl

/-! ## The status and the NMI of a dot (R218, R322, R323) -/

/-- R320: before dot 257, what a rendering line changes is not the status. -/
theorem Ppu.renderStep_status (c : Cartridge) {p : Ppu} (h : p.dot ≠ 257) : (p.renderStep c).status = p.status := by
  unfold Ppu.renderStep
  split
  · simp only
    rw [if_neg h]
    split
    · exact (Ppu.backgroundStep_alike c p p.dot).status
    · rfl
  · rfl

/-- R320: only the visible lines have pixels. -/
theorem Ppu.pixelStep_eq_self {p : Ppu} (h : 239 < p.scanline) : p.pixelStep = p := by
  unfold Ppu.pixelStep
  rw [if_neg (by omega)]

/-- R322, R323: below the picture, the dot 1 of a line makes the VBlank updates of the status and no others. -/
theorem Ppu.tick_status (c : Cartridge) {p : Ppu} (hs : 239 < p.scanline) (hd : p.dot = 1) :
    (p.tick c).status = p.vblankStatus := by
  have same := Ppu.sameBeam_renderStep c p.beginDot
  have hs' : 239 < (p.beginDot.renderStep c).scanline := by rw [same.scanline]; exact hs
  have hd' : p.beginDot.dot ≠ 257 := by
    have : p.beginDot.dot = p.dot := rfl
    omega
  rw [Ppu.tick_eq, Ppu.advance_eq, Ppu.pixelStep_eq_self hs']
  exact Ppu.renderStep_status c hd'

theorem Ppu.tick_frameCount (c : Cartridge) (p : Ppu) :
    (p.tick c).frameCount = p.frameCount + if p.AtVblank then 1 else 0 := by
  rw [Ppu.tick_eq, Ppu.advance_eq]
  exact (Ppu.sameBeam_rendered c p).frameCount

/-- R320, R322, R351: the dot, then the halt latch and the NMI latch. -/
theorem ppuTick_eq (st : State) :
    ppuTick st =
      ((st.setPpu (st.ppu.tick st.launch.cart)).setHalted (st.halted && !st.ppu.resumesCpu)).setNmiPending
        (st.nmiPending || st.ppu.raisesNmi) := by
  unfold ppuTick
  cases hr : st.ppu.resumesCpu <;> cases hn : st.ppu.raisesNmi <;>
    simp only [Bool.not_true, Bool.not_false, Bool.and_true, Bool.and_false, Bool.or_true, Bool.or_false] <;> rfl

/-! ## Sprite evaluation (R335) -/

/-- R335: OAM entry `n` has a row on line `t`. -/
def Ppu.onLine (p : Ppu) (t n : Nat) : Bool := decide (0 ≤ p.spriteRow n t ∧ p.spriteRow n t < p.spriteHeight)

/-- R335: the buffer entry of OAM entry `n` on line `t`. -/
def Ppu.entryOn (c : Cartridge) (t : Nat) (p : Ppu) (n : Nat) : SpriteEntry :=
  p.spriteEntry c n (p.spriteRow n t).toNat

section
variable (c : Cartridge) (t fuel n : Nat) {p : Ppu}

theorem Ppu.scanSprites_skip (h : p.onLine t n = false) :
    Ppu.scanSprites c t (fuel + 1) n p = Ppu.scanSprites c t fuel (n + 1) p := by
  rw [Ppu.scanSprites, if_neg (of_decide_eq_false h)]

theorem Ppu.scanSprites_take (h : p.onLine t n = true) (room : p.sprites.length < 7) :
    Ppu.scanSprites c t (fuel + 1) n p =
      Ppu.scanSprites c t fuel (n + 1) { p with sprites := p.sprites ++ [p.entryOn c t n] } := by
  rw [Ppu.scanSprites, if_pos (of_decide_eq_true h), if_neg (by rw [List.length_append, List.length_singleton]; omega)]
  rfl

theorem Ppu.scanSprites_eighth (h : p.onLine t n = true) (last : p.sprites.length = 7) :
    Ppu.scanSprites c t (fuel + 1) n p =
      { p with sprites := p.sprites ++ [p.entryOn c t n], status := p.status ||| 0x20 } := by
  rw [Ppu.scanSprites, if_pos (of_decide_eq_true h), if_pos (by rw [List.length_append, last]; rfl)]
  rfl

end

/-- R335: the scan of `fuel` entries from `n` on appends those on the line until there are eight, and sets the
overflow flag with the eighth. -/
theorem Ppu.scanSprites_spec (c : Cartridge) (t fuel n : Nat) {p : Ppu} (h : p.sprites.length < 8) :
    (Ppu.scanSprites c t fuel n p).sprites =
      p.sprites ++ (((List.range' n fuel).filter (p.onLine t)).take (8 - p.sprites.length)).map (p.entryOn c t) ∧
    (Ppu.scanSprites c t fuel n p).status =
      if (Ppu.scanSprites c t fuel n p).sprites.length = 8 then p.status ||| 0x20 else p.status := by
  induction fuel generalizing n p with
  | zero =>
    refine ⟨by simp [Ppu.scanSprites], ?_⟩
    rw [Ppu.scanSprites, if_neg (by omega)]
  | succ fuel ih =>
    rw [List.range'_succ]
    by_cases on : p.onLine t n = true
    · rw [List.filter_cons_of_pos on]
      by_cases last : p.sprites.length = 7
      · rw [Ppu.scanSprites_eighth c t fuel n on last, last]
        simp [last]
      · have room : p.sprites.length < 7 := by omega
        obtain ⟨left, hleft⟩ : ∃ left, 7 - p.sprites.length = left := ⟨_, rfl⟩
        obtain ⟨sprites, status⟩ :=
          ih (n + 1) (p := { p with sprites := p.sprites ++ [p.entryOn c t n] }) (by simp; omega)
        rw [Ppu.scanSprites_take c t fuel n on room]
        refine ⟨?_, status⟩
        rw [sprites, List.append_assoc, List.length_append, List.length_singleton,
          show 8 - p.sprites.length = left + 1 by omega, show 8 - (p.sprites.length + 1) = left by omega,
          List.take_succ_cons]
        rfl
    · rw [List.filter_cons_of_neg on, Ppu.scanSprites_skip c t fuel n (Bool.eq_false_of_not_eq_true on)]
      exact ih (n + 1) h

/-! ## The obligations -/

/-- Settles O58: 261 lines of 341 dots, then the pre-render line of the frame. -/
theorem frameLength : Obligations.FrameLength := by
  intro c p hd hs
  have fields {q : Ppu} {b : Beam} (h : q.beam = b) :
      q.dot = b.dot ∧ q.scanline = b.scanline ∧ q.oddFrame = b.oddFrame := h ▸ ⟨rfl, rfl, rfl⟩
  have start {o : Bool} (ho : p.oddFrame = o) : p.beam = ⟨0, 0, o⟩ := by rw [Ppu.beam, hd, hs, ho]
  refine ⟨fun ho => fields (b := ⟨0, 0, true⟩) ?even, fun ho => fields (b := ⟨0, 0, false⟩) ?odd⟩
  case even =>
    rw [Ppu.beam_iterate_tick, start ho, show 89342 = 341 + 341 * 261 by norm_num, Function.iterate_add_apply,
      Beam.iterate_next_lines _ le_rfl, Beam.iterate_next_last_even]
  case odd =>
    rw [Ppu.beam_iterate_tick, start ho, show 89341 = 340 + 341 * 261 by norm_num, Function.iterate_add_apply,
      Beam.iterate_next_lines _ le_rfl, Beam.iterate_next_last_odd]

/-- Settles O59: the latch by `ppuTick_eq`, the frame count and the status by how the dot begins. -/
theorem vBlankAndNmi : Obligations.VBlankAndNmi := by
  intro st
  rw [ppuTick_ppu]
  refine ⟨?latch, Ppu.tick_frameCount _ _, fun hs hd => ?set, fun hs hd => ?clear⟩
  case latch => rw [ppuTick_eq]; rfl
  case set => rw [Ppu.tick_status _ (by omega) hd, Ppu.vblankStatus, if_pos ⟨hs, hd⟩]
  case clear =>
    rw [Ppu.tick_status _ (by omega) hd, Ppu.vblankStatus, if_neg (by rintro ⟨h, -⟩; omega), if_pos ⟨hs, hd⟩]

/-- Settles O60: the scan of all 64 entries with an empty buffer. -/
theorem spriteEvaluation : Obligations.SpriteEvaluation := by
  intro c p line
  have empty : ({ p with sprites := [] } : Ppu).sprites.length < 8 := by simp
  obtain ⟨sprites, status⟩ := Ppu.scanSprites_spec c line 64 0 empty
  refine ⟨?_, status⟩
  have test : ({ p with sprites := [] } : Ppu).onLine line = fun n =>
      decide (0 ≤ ((p.oam.read (4 * n)).toNat : Int) - line + 8) &&
      decide (((p.oam.read (4 * n)).toNat : Int) - line + 8 < if p.ctrl.getLsbD 5 then 16 else 8) := by
    funext n
    rw [← Bool.decide_and]
    simp only [Ppu.onLine, Ppu.spriteRow, Ppu.spriteHeight, Nat.cast_ite, Nat.cast_ofNat]
  rw [test, ← List.range_eq_range'] at sprites
  exact sprites

end Sys2Proof.Machine
end

section
/-! PROOFS. The OAM DMA: the copy of a page that holds no device register is a fill of OAM (R350), and the countdown
holds the CPU for 1539 dots (R351, R360, R430). -/

namespace Sys2Proof.Machine

/-! ## The copy (R350) -/

/-- `m` with `f j` stored at each `j` of the `fuel` places from `i` on. -/
def Memory.fill (f : Nat → Byte) : Nat → Nat → Memory → Memory
  | 0, _, m => m
  | fuel + 1, i, m => Memory.fill f fuel (i + 1) (m.write i (f i))

theorem Memory.read_fill (f : Nat → Byte) (fuel i : Nat) (m : Memory) (j : Nat) :
    (m.fill f fuel i).read j = if i ≤ j ∧ j < i + fuel then f j else m.read j := by
  induction fuel generalizing i m with
  | zero => rw [if_neg (by omega)]; rfl
  | succ fuel ih =>
    rw [Memory.fill, ih, Memory.read_write]
    by_cases here : i = j
    · subst here
      rw [if_neg (by omega), if_pos rfl, if_pos (by omega)]
    · rw [if_neg here]
      exact if_congr (by omega) rfl rfl

/-- R48, R49: the page holds no device register: each of its addresses is plain memory or nothing. -/
def QuietPage (c : Cartridge) (page : Byte) : Prop :=
  ∀ lo, (route c (word page lo)).isStorage = true ∨ route c (word page lo) = .nothing

/-- R46: the pages below `0x20` are RAM, and those above `0x40` the cartridge. -/
theorem quietPage (c : Cartridge) {page : Byte} (h : page.toNat < 0x20 ∨ 0x41 ≤ page.toNat) : QuietPage c page := by
  intro lo
  have addr := toNat_word page lo
  have lt := lo.isLt
  rcases h with h | h
  · rw [route_of_lt_2000 c (by omega)]
    exact .inl rfl
  · rw [route_high c (by omega)]
    rcases c.route_cases (word page lo).toNat with ⟨k, hk⟩ | ⟨k, hk⟩ | hk
    · exact .inl (by rw [hk]; rfl)
    · exact .inl (by rw [hk]; rfl)
    · exact .inr hk

/-- R50, R254: a read in a quiet page changes nothing, and its value depends on memory alone. -/
theorem QuietPage.busRead_eq {page : Byte} {st s : State} (quiet : QuietPage st.launch.cart page) (hr : s.ram = st.ram)
    (hp : s.prgRam = st.prgRam) (hl : s.launch = st.launch) (lo : Byte) :
    busRead (word page lo) s = (busPeek (word page lo) st, s) := by
  rcases quiet lo with h | h
  · have value := busPeek_congr hr hp hl h
    rw [← hl] at h
    exact Prod.ext value (busRead_state_of_storage h)
  · have nothing : busPeek (word page lo) st = 0 := congrArg Prod.fst (busRead_of_route_nothing h)
    rw [← hl] at h
    rw [nothing, busRead_of_route_nothing h]

/-- R350: the copy of a quiet page fills OAM, and changes nothing else. -/
theorem QuietPage.dmaCopy_eq {page : Byte} {st : State} (quiet : QuietPage st.launch.cart page) (fuel i : Nat)
    (s : State) (hr : s.ram = st.ram) (hp : s.prgRam = st.prgRam) (hl : s.launch = st.launch) :
    dmaCopy page fuel i s =
      s.setPpu
        { s.ppu with oam := s.ppu.oam.fill (fun j => busPeek (word page (BitVec.ofNat 8 j)) st) fuel i } := by
  induction fuel generalizing i s with
  | zero => rfl
  | succ fuel ih =>
    simp only [dmaCopy, quiet.busRead_eq hr hp hl]
    exact ih (i + 1) (s.setPpu { s.ppu with oam := s.ppu.oam.write i _ }) hr hp hl

/-- R350: what the copy of the first `fuel` bytes of a quiet page leaves. -/
theorem QuietPage.dmaCopy_spec {page : Byte} {st : State} (quiet : QuietPage st.launch.cart page) (fuel : Nat)
    (s : State) (hr : s.ram = st.ram) (hp : s.prgRam = st.prgRam) (hl : s.launch = st.launch) :
    (dmaCopy page fuel 0 s).pads = s.pads ∧
    (dmaCopy page fuel 0 s).ppu = { s.ppu with oam := (dmaCopy page fuel 0 s).ppu.oam } ∧
    ∀ i, i < fuel → (dmaCopy page fuel 0 s).ppu.oam.read i = busPeek (word page (BitVec.ofNat 8 i)) st := by
  rw [quiet.dmaCopy_eq fuel 0 s hr hp hl]
  refine ⟨rfl, rfl, fun i hi => ?_⟩
  rw [State.setPpu_ppu, Memory.read_fill, if_pos (by omega)]

/-! ## The write of `0x4014` (R350, R383) -/

/-- R350: `oam_addr` is no part of what a read changes. -/
theorem busRead_oamAddr (addr : Addr) (st : State) : (busRead addr st).2.ppu.oamAddr = st.ppu.oamAddr := by
  rcases busRead_cases addr st with h | ⟨r, -, h⟩ | ⟨q, -, h⟩
  · rw [h]
  · rw [h, State.setPpu_ppu]
    unfold Ppu.readReg
    split <;> rfl
  · rw [h]
    rfl

theorem dmaCopy_oamAddr (page : Byte) (fuel i : Nat) (st : State) :
    (dmaCopy page fuel i st).ppu.oamAddr = st.ppu.oamAddr := by
  induction fuel generalizing i st with
  | zero => rfl
  | succ fuel ih => rw [dmaCopy, ih]; exact busRead_oamAddr _ st

/-- R383, R350: the state in which the copy begins. -/
def State.beforeCopy (st : State) (page : Byte) : State :=
  (st.setApu { st.apu with dmaPage := page }).setHalted true

/-- R350: `t` with the countdown started. -/
def State.startCountdown (t : State) : State := t.setPpu { t.ppu with dmaActive := true, dmaCounter := 1539 }

theorem busWrite_dmaPage (b : Byte) (st : State) :
    busWrite 0x4014 b st = (dmaCopy b 256 0 (st.beforeCopy b)).startCountdown := by
  have hr : route st.launch.cart 0x4014 = .apu 0x14 := rfl
  have halted : (st.setApu (st.apu.writeReg st.launch 0x14 b)).cpuOnSignal .cpuHlt = st.beforeCopy b := rfl
  have page : (st.beforeCopy b).apu.dmaPage = b := rfl
  rw [busWrite_of_route_apu hr, apuWrite, if_pos rfl, broadcast, ppuOnDma, halted, page]
  rfl

/-! ## One tick of the stall (R351, R360, R430) -/

/-- What a halted CPU keeps: its registers and counts, memory, the launch parameters and the host calls. -/
structure Stalls (st t : State) : Prop where
  a : t.a = st.a
  x : t.x = st.x
  y : t.y = st.y
  s : t.s = st.s
  p : t.p = st.p
  pc : t.pc = st.pc
  budget : t.budget = st.budget
  cycleCount : t.cycleCount = st.cycleCount
  ram : t.ram = st.ram
  prgRam : t.prgRam = st.prgRam
  launch : t.launch = st.launch
  hostCalls : t.hostCalls = st.hostCalls

theorem Stalls.refl (st : State) : Stalls st st := ⟨rfl, rfl, rfl, rfl, rfl, rfl, rfl, rfl, rfl, rfl, rfl, rfl⟩

theorem Stalls.trans {st t u : State} (e : Stalls st t) (f : Stalls t u) : Stalls st u :=
  ⟨f.a.trans e.a, f.x.trans e.x, f.y.trans e.y, f.s.trans e.s, f.p.trans e.p, f.pc.trans e.pc,
    f.budget.trans e.budget, f.cycleCount.trans e.cycleCount, f.ram.trans e.ram, f.prgRam.trans e.prgRam,
    f.launch.trans e.launch, f.hostCalls.trans e.hostCalls⟩

/-- R351: the countdown of one dot. -/
theorem Ppu.dma_tick (c : Cartridge) (p : Ppu) :
    (p.tick c).dmaActive = (p.dmaActive && p.dmaCounter != 0) ∧
    (p.tick c).dmaCounter = if p.dmaActive then p.dmaCounter - 1 else p.dmaCounter := by
  have same := Ppu.sameBeam_rendered c p
  rw [Ppu.tick_eq, Ppu.advance_eq]
  exact ⟨same.dmaActive, same.dmaCounter⟩

theorem stalls_ppuTick (st : State) : Stalls st (ppuTick st) := by
  rw [ppuTick_eq]
  constructor <;> simp

theorem stalls_apuTick (st : State) : Stalls st (apuTick st) := by
  rw [apuTick_eq]
  constructor <;> simp

theorem stalls_countTick (st : State) : Stalls st (countTick st) :=
  ⟨rfl, rfl, rfl, rfl, rfl, rfl, rfl, rfl, rfl, rfl, rfl, rfl⟩

@[simp] theorem apuTick_halted (st : State) : (apuTick st).halted = st.halted := by simp [apuTick_eq]
@[simp] theorem apuTick_tickCount (st : State) : (apuTick st).tickCount = st.tickCount := by simp [apuTick_eq]
@[simp] theorem apuTick_ppu (st : State) : (apuTick st).ppu = st.ppu := by simp [apuTick_eq]
@[simp] theorem ppuTick_tickCount (st : State) : (ppuTick st).tickCount = st.tickCount := by simp [ppuTick_eq]

/-- R351: the CPU is released by the dot that finds the countdown at 0. -/
theorem ppuTick_halted (st : State) : (ppuTick st).halted = (st.halted && !st.ppu.resumesCpu) := by simp [ppuTick_eq]

/-- R430, R220: a tick whose CPU is halted, or which carries no CPU cycle, is a dot, an APU cycle at most, and the
count. -/
theorem tick_of_idle {st : State} (h : (ppuTick st).halted = true ∨ cpuTurn (ppuTick st) = false) :
    ∃ t, tick st = .next t ∧ Stalls st t ∧ t.tickCount = st.tickCount + 1 ∧ t.halted = (ppuTick st).halted ∧
      t.ppu = st.ppu.tick st.launch.cart := by
  have dot := stalls_ppuTick st
  by_cases turn : cpuTurn (ppuTick st) = true
  · have halted : (ppuTick st).halted = true := h.resolve_right (by simp [turn])
    refine ⟨countTick (apuTick (ppuTick st)), by simp [tick, turn, cpuCycle_of_halted halted, mapNext],
      (dot.trans (stalls_apuTick _)).trans (stalls_countTick _), ?_⟩
    simp [countTick, ppuTick_ppu]
  · refine ⟨countTick (ppuTick st), by simp [tick, turn], dot.trans (stalls_countTick _), ?_⟩
    simp [countTick, ppuTick_ppu]

/-- R434: with no host call to come, a step is a tick. -/
theorem step_of_noHostCalls {st : State} (h : st.hostCalls = []) : step st = tick st := by
  rw [step, hostPhase, h]

/-- The first step of a run. -/
theorem run_of_step {st u : State} (h : step st = .next u) (n : Nat) :
    Host.Core.run Sys2Proof.core (n + 1) st = Host.Core.run Sys2Proof.core n u := by
  simp only [Host.Core.run]
  rw [show Sys2Proof.core.step st = .next u from h]

/-- One step more of a run. -/
theorem run_succ {n : Nat} {st t : State} (h : Host.Core.run Sys2Proof.core n st = .next t) :
    Host.Core.run Sys2Proof.core (n + 1) st = step t := by
  induction n generalizing st with
  | zero =>
    cases h
    obtain ⟨u, next, -⟩ := step_answers t
    exact (run_of_step next 0).trans next.symm
  | succ n ih =>
    obtain ⟨u, next, -⟩ := step_answers st
    rw [run_of_step next] at h ⊢
    exact ih h

/-! ## The countdown (R351, R360) -/

/-- The state `n` dots into the stall that began in `st`. -/
structure Stalled (st : State) (n : Nat) (t : State) : Prop where
  cpu : Stalls st t
  tickCount : t.tickCount = st.tickCount + n
  halted : t.halted = true
  dmaActive : t.ppu.dmaActive = true
  dmaCounter : t.ppu.dmaCounter = 1539 - n

/-- R351, R430: one step of the stall, and what it leaves of the halt. -/
theorem Stalled.step {st t : State} {n : Nat} (h : Stalled st n t) (calls : st.hostCalls = [])
    (idle : n < 1539 ∨ (st.tickCount + n) % 3 ≠ st.launch.clockPhase.val) :
    ∃ u, Machine.step t = .next u ∧ Stalls st u ∧ u.tickCount = st.tickCount + (n + 1) ∧
      u.halted = decide (n < 1539) ∧ u.ppu.dmaActive = decide (n < 1539) ∧ u.ppu.dmaCounter = 1539 - (n + 1) := by
  obtain ⟨cpu, count, halted, active, counter⟩ := h
  have running : (t.ppu.dmaCounter != 0) = decide (n < 1539) := by
    rw [counter, Bool.eq_iff_iff, bne_iff_ne, decide_eq_true_iff]
    omega
  have latch : (ppuTick t).halted = decide (n < 1539) := by
    rw [ppuTick_halted, halted, Ppu.resumesCpu, active, Bool.true_and, Bool.true_and]
    exact running
  have asleep : (ppuTick t).halted = true ∨ cpuTurn (ppuTick t) = false := by
    rcases idle with hn | hturn
    · exact .inl (latch.trans (decide_eq_true hn))
    · have launch := (stalls_ppuTick t).launch.trans cpu.launch
      exact .inr (by simpa [cpuTurn, count, launch] using hturn)
  obtain ⟨u, next, same, count', halted', ppu⟩ := tick_of_idle asleep
  obtain ⟨active', counter'⟩ := Ppu.dma_tick t.launch.cart t.ppu
  rw [← ppu] at active' counter'
  refine ⟨u, (step_of_noHostCalls (cpu.hostCalls.trans calls)).trans next, cpu.trans same, by omega,
    halted'.trans latch, ?_, ?_⟩
  · rw [active', active, Bool.true_and, running]
  · rw [counter', active, if_pos rfl, counter]
    omega

/-- R351, R360: for 1539 dots the CPU is held. -/
theorem run_stalled {st : State} (start : Stalled st 0 st) (calls : st.hostCalls = []) {n : Nat} (hn : n ≤ 1539) :
    ∃ t, Host.Core.run Sys2Proof.core n st = .next t ∧ Stalled st n t := by
  induction n with
  | zero => exact ⟨st, rfl, start⟩
  | succ n ih =>
    obtain ⟨t, run, stalled⟩ := ih (by omega)
    obtain ⟨u, next, cpu, count, halted, active, counter⟩ := stalled.step calls (.inl hn)
    exact ⟨u, (run_succ run).trans next, cpu, count, halted.trans (decide_eq_true hn),
      active.trans (decide_eq_true hn), counter⟩

/-- Of the first `n` numbers, `n / 3` are 2 modulo 3. -/
theorem length_filter_mod_three (n : Nat) : ((List.range n).filter (fun i => decide (i % 3 = 2))).length = n / 3 := by
  induction n with
  | zero => rfl
  | succ n ih =>
    rw [List.range_succ, List.filter_append, List.length_append, ih]
    by_cases h : n % 3 = 2
    · simp [h]
      omega
    · simp [h]
      omega

/-! ## The obligations -/

/-- Settles O52: the write is the copy and the start of the countdown, and the copy of a quiet page is a fill. -/
theorem oamDmaCopies : Obligations.OamDmaCopies := by
  rintro b st t rfl
  have keeps : Keeps [.halted, .apu, .ppu, .pads] [] st (busWrite 0x4014 b st) :=
    (Keeps.refl _ _ st).busWrite (by simp) _ b
  have halted := dmaCopy_halted b 256 0 (st.beforeCopy b)
  have apu := dmaCopy_apu b 256 0 (st.beforeCopy b)
  have oamAddr := dmaCopy_oamAddr b 256 0 (st.beforeCopy b)
  have ram := dmaCopy_ram b 256 0 (st.beforeCopy b)
  have prgRam := dmaCopy_prgRam b 256 0 (st.beforeCopy b)
  have copied (hb : b.toNat < 0x20 ∨ 0x41 ≤ b.toNat) :=
    (quietPage st.launch.cart hb).dmaCopy_spec 256 (st.beforeCopy b) rfl rfl rfl
  rw [busWrite_dmaPage] at keeps ⊢
  generalize dmaCopy b 256 0 (st.beforeCopy b) = t at *
  refine ⟨halted, apu, rfl, rfl, oamAddr, keeps, .of_eq ram prgRam keeps.launch, fun hb => ?_⟩
  obtain ⟨pads, ppu, oam⟩ := copied hb
  exact ⟨pads, by rw [State.startCountdown, State.setPpu_ppu, ppu]; rfl, oam⟩

/-- Settles O53: the stall lasts while the countdown runs, and the tick that ends it carries no CPU cycle. -/
theorem dmaStallsTheCpu : Obligations.DmaStallsTheCpu := by
  intro st halted active counter calls phase
  have start : Stalled st 0 st := ⟨.refl st, rfl, halted, active, counter⟩
  have turn := st.launch.clockPhase.isLt
  have answer {t : State} (cpu : Stalls st t) : t.a = st.a ∧ t.x = st.x ∧ t.y = st.y ∧ t.s = st.s ∧ t.p = st.p ∧
      t.pc = st.pc ∧ t.budget = st.budget ∧ t.cycleCount = st.cycleCount ∧ KeepsMemory st t :=
    ⟨cpu.a, cpu.x, cpu.y, cpu.s, cpu.p, cpu.pc, cpu.budget, cpu.cycleCount,
      .of_eq cpu.ram cpu.prgRam cpu.launch⟩
  refine ⟨fun n hn => ?stall, ?turns⟩
  case stall =>
    by_cases held : n ≤ 1539
    · obtain ⟨t, run, cpu, count, halted, -, -⟩ := run_stalled start calls held
      exact ⟨t, run, count, halted.trans (decide_eq_true (by omega)).symm, answer cpu⟩
    · obtain rfl : n = 1540 := by omega
      obtain ⟨t, run, stalled⟩ := run_stalled start calls le_rfl
      obtain ⟨u, next, cpu, count, released, -, -⟩ := stalled.step calls (.inr (by omega))
      exact ⟨u, (run_succ run).trans next, count, released, answer cpu⟩
  case turns =>
    have same : ∀ n ∈ List.range 1540,
        decide ((st.tickCount + n) % 3 = st.launch.clockPhase.val) = decide (n % 3 = 2) :=
      fun n _ => decide_eq_decide.2 (by omega)
    rw [List.filter_congr same, length_filter_mod_three]

end Sys2Proof.Machine
end
